-- ==== Sys2Proof/Word.lean ====
section
/-! DEFINITION. The machine's value types: bytes and 16-bit words (00_scope.md R10). -/

namespace Sys2Proof

/-- One unsigned 8-bit value: a general register, a timer, a memory byte (R10, R20, R30, R50). -/
abbrev Byte := BitVec 8

/-- One unsigned 16-bit value: an opcode, I, PC, a stacked return address (R10, R23, R24, R28, R71). -/
abbrev Word := BitVec 16

end Sys2Proof
end

