-- ==== Sys2Proof/Syntax.lean ====
section
/-! DEFINITION. The 34 instruction kinds with their operands, in the order of 30_encoding.md R70. -/

namespace Sys2Proof

/-- The number of a general register, V[0] to V[15] (R20, R72). -/
abbrev Reg := Fin 16

/-- V[0xF], the register that also serves as the flag (R21). -/
abbrev VF : Reg := 15

/-- A 12-bit address field NNN (R72, R74). -/
abbrev Addr := BitVec 12

/-- DRAW's row count, the low nibble N (R72, R201). -/
abbrev Rows := Fin 16

/-- One constructor per row of spec/opcode_table.json. `x`, `y` are the register fields, `kk` the immediate byte, `nnn` the
address, `n` the row count (R72). SHR and SHL keep the Y field their handlers ignore (R73, R159, R160), so that an instruction
holds every bit of its word. -/
inductive Instr where
  | cls
  | ret
  | jmp (nnn : Addr)
  | call (nnn : Addr)
  | se (x : Reg) (kk : Byte)
  | sne (x : Reg) (kk : Byte)
  | ser (x y : Reg)
  | sner (x y : Reg)
  | set (x : Reg) (kk : Byte)
  | setr (x y : Reg)
  | add (x : Reg) (kk : Byte)
  | addr (x y : Reg)
  | sub (x y : Reg)
  | subr (x y : Reg)
  | or (x y : Reg)
  | and (x y : Reg)
  | xor (x y : Reg)
  | shr (x y : Reg)
  | shl (x y : Reg)
  | lda (nnn : Addr)
  | jmpo (nnn : Addr)
  | rand (x : Reg) (kk : Byte)
  | draw (x y : Reg) (n : Rows)
  | skp (x : Reg)
  | sknp (x : Reg)
  | lddt (x : Reg)
  | stdt (x : Reg)
  | stst (x : Reg)
  | ldkp (x : Reg)
  | adda (x : Reg)
  | ldsa (x : Reg)
  | stdr (x : Reg)
  | ldrd (x : Reg)
  | strd (x : Reg)
  deriving DecidableEq, Repr

end Sys2Proof
end

