-- ==== Sys2Proof/WellFormed.lean ====
section
/-! DEFINITION. Which instructions the assembler syntax of 30_encoding.md R84 can write. Operand ranges hold by the operand types;
what is left to check is the ignored Y field of SHR and SHL, which R84 writes as 0. The machine itself runs every instruction,
well-formed or not. -/

namespace Sys2Proof

/-- The Y field of `SHR Vx` and `SHL Vx` is written as 0 (R84). -/
def ignoredFieldIsZero (y : Reg) : Bool := y == 0

/-- The instruction has a spelling in the assembler syntax of R84. -/
def Instr.wellFormed : Instr → Bool
  | .cls => true
  | .ret => true
  | .jmp _ => true
  | .call _ => true
  | .se _ _ => true
  | .sne _ _ => true
  | .ser _ _ => true
  | .sner _ _ => true
  | .set _ _ => true
  | .setr _ _ => true
  | .add _ _ => true
  | .addr _ _ => true
  | .sub _ _ => true
  | .subr _ _ => true
  | .or _ _ => true
  | .and _ _ => true
  | .xor _ _ => true
  | .shr _ y => ignoredFieldIsZero y
  | .shl _ y => ignoredFieldIsZero y
  | .lda _ => true
  | .jmpo _ => true
  | .rand _ _ => true
  | .draw _ _ _ => true
  | .skp _ => true
  | .sknp _ => true
  | .lddt _ => true
  | .stdt _ => true
  | .stst _ => true
  | .ldkp _ => true
  | .adda _ => true
  | .ldsa _ => true
  | .stdr _ => true
  | .ldrd _ => true
  | .strd _ => true

end Sys2Proof
end

