-- ==== Sys2Proof/Decode.lean ====
section
/-! DEFINITION. From bits to instructions and back (30_encoding.md): the field helpers, the total decoder with its Unsupported
marker, the encoder, and the opcode table as rows of fixed fields. The numeric patterns are the spec's own choice (D1; PRESUMED, unsafe:
log entry 14). -/

namespace Sys2Proof

/-! ## Fields (R9, R72, R74) -/

/-- `w[hi:lo]` as an unsigned number (R9). -/
def field (w : Word) (hi lo : Nat) : Nat := w.toNat / 2 ^ lo % 2 ^ (hi + 1 - lo)

/-- The top nibble, the primary group. -/
def topNibble (w : Word) : Nat := field w 15 12

/-- `x(op) = op[11:8]`. -/
def fieldX (w : Word) : Reg := Fin.ofNat 16 (field w 11 8)

/-- `y(op) = op[7:4]`. -/
def fieldY (w : Word) : Reg := Fin.ofNat 16 (field w 7 4)

/-- `n(op) = op[3:0]`. -/
def fieldN (w : Word) : Rows := Fin.ofNat 16 (field w 3 0)

/-- `imm(op) = op[7:0]`. -/
def fieldKK (w : Word) : Byte := BitVec.ofNat 8 (field w 7 0)

/-- `addr(op) = op[11:0]`. -/
def fieldNNN (w : Word) : Addr := BitVec.ofNat 12 (field w 11 0)

/-! ## The decoder -/

/-- Group 0x8: the low nibble chooses among nine operations (R76). -/
def decodeGroup8 (w : Word) : Option Instr :=
  match field w 3 0 with
  | 0x0 => some (.setr (fieldX w) (fieldY w))
  | 0x1 => some (.or (fieldX w) (fieldY w))
  | 0x2 => some (.and (fieldX w) (fieldY w))
  | 0x3 => some (.xor (fieldX w) (fieldY w))
  | 0x4 => some (.addr (fieldX w) (fieldY w))
  | 0x5 => some (.sub (fieldX w) (fieldY w))
  | 0x6 => some (.shr (fieldX w) (fieldY w))
  | 0x7 => some (.subr (fieldX w) (fieldY w))
  | 0xE => some (.shl (fieldX w) (fieldY w))
  | _ => none

/-- Group 0xE: the low byte chooses between two operations (R77). -/
def decodeGroupE (w : Word) : Option Instr :=
  match field w 7 0 with
  | 0x9E => some (.skp (fieldX w))
  | 0xA1 => some (.sknp (fieldX w))
  | _ => none

/-- Group 0xF: the low byte chooses among nine operations (R77). -/
def decodeGroupF (w : Word) : Option Instr :=
  match field w 7 0 with
  | 0x07 => some (.lddt (fieldX w))
  | 0x0A => some (.ldkp (fieldX w))
  | 0x15 => some (.stdt (fieldX w))
  | 0x18 => some (.stst (fieldX w))
  | 0x1E => some (.adda (fieldX w))
  | 0x29 => some (.ldsa (fieldX w))
  | 0x33 => some (.stdr (fieldX w))
  | 0x55 => some (.strd (fieldX w))
  | 0x65 => some (.ldrd (fieldX w))
  | _ => none

/-- Group 0x0 under strict decode: two whole words (R78). -/
def decodeGroup0 (w : Word) : Option Instr :=
  match field w 11 0 with
  | 0x0E0 => some .cls
  | 0x0EE => some .ret
  | _ => none

/-- The opcode map with LOOSE_DECODE = false (R75 to R79). `none` is the Unsupported marker. -/
def decodeStrict (w : Word) : Option Instr :=
  match topNibble w with
  | 0x0 => decodeGroup0 w
  | 0x1 => some (.jmp (fieldNNN w))
  | 0x2 => some (.call (fieldNNN w))
  | 0x3 => some (.se (fieldX w) (fieldKK w))
  | 0x4 => some (.sne (fieldX w) (fieldKK w))
  | 0x5 => if field w 3 0 = 0 then some (.ser (fieldX w) (fieldY w)) else none
  | 0x6 => some (.set (fieldX w) (fieldKK w))
  | 0x7 => some (.add (fieldX w) (fieldKK w))
  | 0x8 => decodeGroup8 w
  | 0x9 => if field w 3 0 = 0 then some (.sner (fieldX w) (fieldY w)) else none
  | 0xA => some (.lda (fieldNNN w))
  | 0xB => some (.jmpo (fieldNNN w))
  | 0xC => some (.rand (fieldX w) (fieldKK w))
  | 0xD => some (.draw (fieldX w) (fieldY w) (fieldN w))
  | 0xE => decodeGroupE w
  | 0xF => decodeGroupF w
  | _ => none

/-- The words LOOSE_DECODE = true adds: bits 11:8 ignored in group 0x0, the low nibble in groups 0x5 and 0x9 (R78, R79). -/
def decodeLooseOnly (w : Word) : Option Instr :=
  match topNibble w with
  | 0x0 => match field w 7 0 with
    | 0xE0 => some .cls
    | 0xEE => some .ret
    | _ => none
  | 0x5 => some (.ser (fieldX w) (fieldY w))
  | 0x9 => some (.sner (fieldX w) (fieldY w))
  | _ => none

/-- The pure total decoder under the parameter LOOSE_DECODE (R81); `none` is Unsupported (R80). -/
def decode (loose : Bool) (w : Word) : Option Instr :=
  match decodeStrict w with
  | some i => some i
  | none => if loose then decodeLooseOnly w else none

/-! ## Bytes -/

/-- `hi ++ lo`: the byte fetched first is bits 15:8 (R51, R53). -/
def joinBytes (hi lo : Byte) : Word := BitVec.ofNat 16 (hi.toNat * 256 + lo.toNat)

/-- Bits 15:8 of a word, stored at the lower address. -/
def highByte (w : Word) : Byte := BitVec.ofNat 8 (field w 15 8)

/-- Bits 7:0 of a word, stored at the higher address. -/
def lowByte (w : Word) : Byte := BitVec.ofNat 8 (field w 7 0)

/-- Why bytes give no instruction. -/
inductive Reject where
  /-- The word is Unsupported (R80). -/
  | unsupported (opcode : Word)
  /-- Fewer than the two bytes of a word are left (R71). -/
  | truncated (left : List Byte)
  deriving DecidableEq, Repr

/-- The first instruction of a list of bytes with the bytes after it, or the reason there is none; total on any bytes (R71, R81). -/
def decodeBytes (loose : Bool) : List Byte → Except Reject (Instr × List Byte)
  | hi :: lo :: rest =>
    match decode loose (joinBytes hi lo) with
    | some i => .ok (i, rest)
    | none => .error (.unsupported (joinBytes hi lo))
  | left => .error (.truncated left)

/-! ## The encoder -/

/-- `gnnn`: group and address (format NNN, R73). -/
def wordNNN (g : Nat) (nnn : Addr) : Word := BitVec.ofNat 16 (g * 4096 + nnn.toNat)

/-- `gxkk`: group, register and byte (formats XKK and X, R73). -/
def wordXKK (g : Nat) (x : Reg) (kk : Byte) : Word := BitVec.ofNat 16 (g * 4096 + x.val * 256 + kk.toNat)

/-- `gxyn`: group, two registers and nibble (formats XY and XYN, R73). -/
def wordXYN (g : Nat) (x y : Reg) (n : Fin 16) : Word :=
  BitVec.ofNat 16 (g * 4096 + x.val * 256 + y.val * 16 + n.val)

/-- The word of an instruction (R75, R84). -/
def encode : Instr → Word
  | .cls => 0x00E0
  | .ret => 0x00EE
  | .jmp nnn => wordNNN 0x1 nnn
  | .call nnn => wordNNN 0x2 nnn
  | .se x kk => wordXKK 0x3 x kk
  | .sne x kk => wordXKK 0x4 x kk
  | .ser x y => wordXYN 0x5 x y 0x0
  | .sner x y => wordXYN 0x9 x y 0x0
  | .set x kk => wordXKK 0x6 x kk
  | .setr x y => wordXYN 0x8 x y 0x0
  | .add x kk => wordXKK 0x7 x kk
  | .addr x y => wordXYN 0x8 x y 0x4
  | .sub x y => wordXYN 0x8 x y 0x5
  | .subr x y => wordXYN 0x8 x y 0x7
  | .or x y => wordXYN 0x8 x y 0x1
  | .and x y => wordXYN 0x8 x y 0x2
  | .xor x y => wordXYN 0x8 x y 0x3
  | .shr x y => wordXYN 0x8 x y 0x6
  | .shl x y => wordXYN 0x8 x y 0xE
  | .lda nnn => wordNNN 0xA nnn
  | .jmpo nnn => wordNNN 0xB nnn
  | .rand x kk => wordXKK 0xC x kk
  | .draw x y n => wordXYN 0xD x y n
  | .skp x => wordXKK 0xE x 0x9E
  | .sknp x => wordXKK 0xE x 0xA1
  | .lddt x => wordXKK 0xF x 0x07
  | .stdt x => wordXKK 0xF x 0x15
  | .stst x => wordXKK 0xF x 0x18
  | .ldkp x => wordXKK 0xF x 0x0A
  | .adda x => wordXKK 0xF x 0x1E
  | .ldsa x => wordXKK 0xF x 0x29
  | .stdr x => wordXKK 0xF x 0x33
  | .ldrd x => wordXKK 0xF x 0x65
  | .strd x => wordXKK 0xF x 0x55

/-- The bytes of an instruction as memory holds them, the high byte at the lower address (R51). -/
def encodeBytes (i : Instr) : List Byte := [highByte (encode i), lowByte (encode i)]

/-! ## The opcode table -/

/-- One fixed field of an opcode-table row: `w[hi:lo] = value`. -/
structure FixedField where
  hi : Nat
  lo : Nat
  value : Nat
  deriving DecidableEq, Repr

/-- The fixed fields of an instruction's row of spec/opcode_table.json (strict decode; the column "fixed"). -/
def Instr.row : Instr → List FixedField
  | .cls => [⟨15, 0, 0xE0⟩]
  | .ret => [⟨15, 0, 0xEE⟩]
  | .jmp _ => [⟨15, 12, 0x1⟩]
  | .call _ => [⟨15, 12, 0x2⟩]
  | .se _ _ => [⟨15, 12, 0x3⟩]
  | .sne _ _ => [⟨15, 12, 0x4⟩]
  | .ser _ _ => [⟨15, 12, 0x5⟩, ⟨3, 0, 0x0⟩]
  | .sner _ _ => [⟨15, 12, 0x9⟩, ⟨3, 0, 0x0⟩]
  | .set _ _ => [⟨15, 12, 0x6⟩]
  | .setr _ _ => [⟨15, 12, 0x8⟩, ⟨3, 0, 0x0⟩]
  | .add _ _ => [⟨15, 12, 0x7⟩]
  | .addr _ _ => [⟨15, 12, 0x8⟩, ⟨3, 0, 0x4⟩]
  | .sub _ _ => [⟨15, 12, 0x8⟩, ⟨3, 0, 0x5⟩]
  | .subr _ _ => [⟨15, 12, 0x8⟩, ⟨3, 0, 0x7⟩]
  | .or _ _ => [⟨15, 12, 0x8⟩, ⟨3, 0, 0x1⟩]
  | .and _ _ => [⟨15, 12, 0x8⟩, ⟨3, 0, 0x2⟩]
  | .xor _ _ => [⟨15, 12, 0x8⟩, ⟨3, 0, 0x3⟩]
  | .shr _ _ => [⟨15, 12, 0x8⟩, ⟨3, 0, 0x6⟩]
  | .shl _ _ => [⟨15, 12, 0x8⟩, ⟨3, 0, 0xE⟩]
  | .lda _ => [⟨15, 12, 0xA⟩]
  | .jmpo _ => [⟨15, 12, 0xB⟩]
  | .rand _ _ => [⟨15, 12, 0xC⟩]
  | .draw _ _ _ => [⟨15, 12, 0xD⟩]
  | .skp _ => [⟨15, 12, 0xE⟩, ⟨7, 0, 0x9E⟩]
  | .sknp _ => [⟨15, 12, 0xE⟩, ⟨7, 0, 0xA1⟩]
  | .lddt _ => [⟨15, 12, 0xF⟩, ⟨7, 0, 0x7⟩]
  | .stdt _ => [⟨15, 12, 0xF⟩, ⟨7, 0, 0x15⟩]
  | .stst _ => [⟨15, 12, 0xF⟩, ⟨7, 0, 0x18⟩]
  | .ldkp _ => [⟨15, 12, 0xF⟩, ⟨7, 0, 0xA⟩]
  | .adda _ => [⟨15, 12, 0xF⟩, ⟨7, 0, 0x1E⟩]
  | .ldsa _ => [⟨15, 12, 0xF⟩, ⟨7, 0, 0x29⟩]
  | .stdr _ => [⟨15, 12, 0xF⟩, ⟨7, 0, 0x33⟩]
  | .ldrd _ => [⟨15, 12, 0xF⟩, ⟨7, 0, 0x65⟩]
  | .strd _ => [⟨15, 12, 0xF⟩, ⟨7, 0, 0x55⟩]

/-- Whether a word lies in a row: every fixed field has its value. -/
def inRow (r : List FixedField) (w : Word) : Bool := r.all fun f => field w f.hi f.lo == f.value

/-- The instruction the decoder reads from the bits `w` of a table row: one 16-bit word, laid out high byte first (R51, R71), under
the default LOOSE_DECODE = false. The bits from `nbits` up are 0. -/
def decodeTableWord (nbits w : Nat) : Option Instr :=
  match decodeBytes false [highByte (BitVec.ofNat 16 (w % 2 ^ nbits)), lowByte (BitVec.ofNat 16 (w % 2 ^ nbits))] with
  | .ok (i, _) => some i
  | .error _ => none

end Sys2Proof
end

