-- ==== Sys2Proof/Config.lean ====
section
/-! DEFINITION. What is fixed for one machine (its parameters, 00_scope.md R8), the kinds of input the outside world gives, and
the free values: constants without a body, of which nothing can be proved. -/

namespace Sys2Proof.Config

/-- STACK_DEPTH: UNBOUNDED, or a positive number of entries (R8, R29). -/
inductive StackDepth where
  | unbounded
  | limit (entries : Nat)
  deriving DecidableEq, Repr, Inhabited

/-- SHIFT_VF_ALIAS: the three readings of `V[F] = ...; V[x] >>= 1` when x = 0xF (R159, R160, D20). -/
inductive ShiftVf where
  | resultLast
  | reread
  | flagLast
  deriving DecidableEq, Repr, Inhabited

/-- EXEC_HZ, TIMER_HZ and TIMER_COUPLED: parameters that no rule reads (R256). R8 calls a rate positive and gives it no number type:
that it is a whole number of Hz is the model's choice (DESIGN CHOICE, unsafe: log entry 20). -/
structure Rates where
  execHz : Nat
  timerHz : Nat
  timerCoupled : Bool
  deriving DecidableEq, Repr, Inhabited

/-- The parameters the machine keeps while it runs (R8). No step changes them. -/
structure Params where
  stackDepth : StackDepth
  looseDecode : Bool
  shiftVf : ShiftVf
  rates : Rates
  deriving DecidableEq, Repr, Inhabited

/-- The values R8 allows: a finite STACK_DEPTH is positive, and so are the rates. -/
abbrev Params.wf (p : Params) : Prop :=
  p.stackDepth ≠ .limit 0 ∧ 0 < p.rates.execHz ∧ 0 < p.rates.timerHz

/-- One of the three clocks' atomic steps (R255). -/
inductive Tick where
  | cycle
  | delay
  | sound
  deriving DecidableEq, Repr, Inhabited

/-- What the outside makes the machine do next: the host's start operation (R102), or one tick, taken from a clock when Running
(R255) or by the host's hand in Ready or Running (R118); a manual tick is exactly a clock's tick. -/
inductive Event where
  | start
  | tick (t : Tick)
  deriving DecidableEq, Repr, Inhabited

/-- One of the 16 logical keys (R7, R35). -/
abbrev Key := Fin 16

/-- Which keys are held at the moment of a query (R35, R263). -/
abbrev Keypad := Vector Bool 16

/-! ## Free values

Each is applied to a count held in State, so that every draw is a fresh value under no law. -/

/-- SHIFT_VF_ALIAS of the machine State.reset stands for: OPEN, no default (R8; log entry 7). -/
opaque shiftVf : ShiftVf

/-- EXEC_HZ of that machine less one, so that the rate is any positive whole number of Hz (R8, R256; log entries 18 and 20). -/
opaque execHzPred : Nat

/-- What the host does next with a Ready machine (R102, R118; log entry 11). -/
opaque hostAction : Nat → Event

/-- Which tick comes next in a Running machine (R255; log entry 11). -/
opaque arbiter : Nat → Tick

/-- The key state at each key query (R263; log entry 10). -/
opaque keypad : Nat → Keypad

/-- The answer to each key poll: a key, or none (R264; log entry 10). -/
opaque pollAnswer : Nat → Option Key

/-- The byte of each RAND (R265; log entry 10). -/
opaque randomByte : Nat → Byte

/-- The answer to each shouldHalt() (R266; log entry 10). -/
opaque haltAnswer : Nat → Bool

/-- Whether a location written by the `n`-th part-way faulting instruction holds the new value (true) or its old one (R249; log
entry 12). The second argument numbers the location. -/
opaque tornNew : Nat → Nat → Bool

end Sys2Proof.Config
end

