-- ==== Sys2Proof/Machine/State.lean ====
section
/-! DEFINITION. The machine's state as plain data (10_state.md), the reasons it stops, and the state after construction with no
program image (10_state.md R37). -/

namespace Sys2Proof.Machine

open Sys2Proof.Config

/-! ## Memory and display -/

/-- The 4096-byte memory (R33, R50) as the list of the bytes that differ from what an unlisted address reads as
(`Memory.unlisted`), addresses strictly rising. -/
abbrev Memory := List Host.Cell

/-- The 64 x 32 grid of one-bit pixels: 32 rows from the top, each 64 columns from the left (R34, R262). -/
abbrev Display := Vector (Vector Bool 64) 32

/-! ## Engine -/

/-- Which memory operation ran out of bounds (R55, R241). -/
inductive Access where
  | fetch
  | read
  | write
  deriving DecidableEq, Repr

/-- Which key test met a key number above 15 (R246). -/
inductive KeyTest where
  | skp
  | sknp
  deriving DecidableEq, Repr

/-- A fatal condition with the diagnostic it records (R241). `pc` is A, the address of the instruction. -/
inductive Diagnostic where
  /-- Dispatch of an Unsupported word (R242). -/
  | unsupported (opcode pc : Word)
  /-- RET with an empty stack (R243). -/
  | stackUnderflow (pc : Word)
  /-- A fetch, read or write at an address of 4096 or more (R245); the address is an unbounded natural (R56). -/
  | memOob (op : Access) (addr : Nat) (pc : Word)
  /-- CALL with a full stack, only when STACK_DEPTH is finite (R244). -/
  | stackOverflow (pc : Word)
  /-- SKP or SKNP with V[x] above 15 (R246). -/
  | keyRange (op : KeyTest) (pc : Word) (value : Byte)
  deriving DecidableEq, Repr

/-- Why a machine halted (R31). -/
inductive HaltReason where
  | fatal (d : Diagnostic)
  | observer
  deriving DecidableEq, Repr

/-- The engine state (R31, R100). -/
inductive Engine where
  | ready
  | running
  | halted (why : HaltReason)
  deriving DecidableEq, Repr

/-! ## Ports -/

/-- The snapshot an observer receives after a completed cycle (R38, R267). -/
structure CycleContext where
  mem : Memory
  v : Vector Byte 16
  i : Word
  pc : Word
  dt : Byte
  st : Byte
  opcode : Word
  deriving DecidableEq, Repr

/-- What one registered observer has been sent (R110, R266; DESIGN CHOICE, safe: log entry 17): how often onCycle was called, and with what last. -/
structure Observer where
  calls : Nat
  last : Option CycleContext
  deriving DecidableEq, Repr

/-- Answers coming in at a port: those injected and not yet taken, and how many were taken so far (R265 "injectable"; log
entry 10). -/
structure Feed (α : Type) where
  queued : List α
  drawn : Nat
  deriving DecidableEq, Repr

/-! ## The state -/

/-- Everything the spec gives the machine, and the model's own fields through which inputs and free values arrive
(INVENTORY.md, State). -/
structure State where
  /-- V[0] to V[15] (R20). -/
  v : Vector Byte 16
  /-- The address register I (R23). -/
  i : Word
  /-- The program counter (R24). -/
  pc : Word
  /-- The call stack, the most recently pushed value first (R28). -/
  stack : List Word
  /-- The delay timer DT (R30). -/
  dt : Byte
  /-- The sound timer ST (R30). -/
  st : Byte
  /-- Memory (R33). -/
  mem : Memory
  /-- The display (R34). -/
  display : Display
  /-- The engine state (R31). -/
  engine : Engine
  /-- The opcode of the cycle in progress or last run (R36). -/
  opcode : Option Word
  /-- The Cycle Context built last (R109, R267). -/
  context : Option CycleContext
  /-- The registered observers, in registration order (R110, R266). -/
  observers : List Observer
  /-- The parameters of this machine (R8). -/
  params : Params
  /-- What comes next: host actions and clock ticks (R102, R118, R255). -/
  schedule : Feed Event
  /-- Key states, one per key query (R263). -/
  keypad : Feed Keypad
  /-- Answers of Keys.poll() (R264). -/
  polls : Feed (Option Key)
  /-- Bytes of Rand() (R265). -/
  random : Feed Byte
  /-- Answers of shouldHalt() (R266). -/
  halts : Feed Bool
  /-- How many instructions have faulted part-way (R249; log entry 12). -/
  torn : Nat
  deriving DecidableEq, Repr

/-! ## Stops -/

/-- Reasons the model has no next state. The fatal conditions of the spec are none of these: they are next states with the engine
Halted (R240, R249; log entry 9). -/
inductive Fault where
  /-- `step` raises it in a Halted machine of which nothing is requested: Halted has no transition (R104, U28). Safe. -/
  | stuckHalted
  deriving DecidableEq, Repr

/-- Requests the machine turns down. -/
inductive Refusal where
  /-- `exec` raises it for an instruction without a meaning; there is none. Safe. -/
  | notModelled (mnemonic : String)
  /-- `step` raises it when a cycle, a tick or a start is requested of a Halted machine (R118, R258, U29). Safe. -/
  | haltedMachine
  /-- `step` raises it when a start is requested of a machine that is not Ready (R100, R268). Safe. -/
  | startNotReady
  /-- `construct` raises it for an image longer than 3584 bytes (R247, R282). Safe. -/
  | imageTooLarge
  /-- `construct` raises it for parameters outside the domains of R8. Safe. -/
  | badParameters
  deriving DecidableEq, Repr

/-! ## Construction values -/

/-- A port at which nothing has been injected or drawn. -/
def Feed.empty {α : Type} : Feed α := { queued := [], drawn := 0 }

/-- The display with every pixel 0. -/
def Display.blank : Display := Vector.replicate 32 (Vector.replicate 64 false)

/-- The defaults of R8. SHIFT_VF_ALIAS and EXEC_HZ have none and are constants without a body. -/
def Params.default : Params :=
  { stackDepth := .unbounded
    looseDecode := false
    shiftVf := Config.shiftVf
    rates := { execHz := Config.execHzPred + 1, timerHz := 60, timerCoupled := false } }

/-- The machine right after construction with an empty program image and no observer (R37, R280). V, I, DT, ST, MEM_INIT and
DISPLAY_INIT are OPEN in the spec and 0 here (DESIGN CHOICE, unsafe: log entries 2, 3, 4 and 6). -/
def State.reset : State :=
  { v := Vector.replicate 16 0
    i := 0
    pc := 0x200
    stack := []
    dt := 0
    st := 0
    mem := []
    display := Display.blank
    engine := .ready
    opcode := none
    context := none
    observers := []
    params := Params.default
    schedule := Feed.empty
    keypad := Feed.empty
    polls := Feed.empty
    random := Feed.empty
    halts := Feed.empty
    torn := 0 }

end Sys2Proof.Machine
end

