-- ==== Sys2Proof/Machine/Ops.lean ====
section
/-! DEFINITION. The named operations over the state: memory, display, registers, call stack, timers, ports, and raising a fatal
condition. -/

namespace Sys2Proof.Machine

open Sys2Proof.Config

/-! ## Memory (20_memory.md) -/

/-- MEM_SIZE (R7). -/
def memSize : Nat := 4096

/-- PROG_BASE, and PC after construction (R7, R24). -/
def progBase : Nat := 0x200

/-- PROG_MAX (R7, R282). -/
def progMax : Nat := 3584

/-- What a byte reads as while nothing differing has been written to it: the classic font at 0x000 (R57, R58; log entry 5), and 0
elsewhere (DESIGN CHOICE for MEM_INIT, unsafe: log entry 4). -/
def Memory.unlisted (a : Nat) : Byte := (classicFont[a]?).getD 0

/-- The byte at an address, without the bounds check. -/
def Memory.get : Memory → Nat → Byte
  | [], a => Memory.unlisted a
  | (b, w) :: rest, a => if b = a then w else Memory.get rest a

/-- Prepends a cell unless it holds what its address reads as unlisted. -/
def Memory.cons (a : Nat) (v : Byte) (rest : Memory) : Memory :=
  if v = Memory.unlisted a then rest else (a, v) :: rest

/-- Stores a byte, without the bounds check, keeping the canonical form (R60: only this byte changes). -/
def Memory.put : Memory → Nat → Byte → Memory
  | [], a, v => Memory.cons a v []
  | (b, w) :: rest, a, v =>
    if a < b then Memory.cons a v ((b, w) :: rest)
    else if a = b then Memory.cons a v rest
    else (b, w) :: Memory.put rest a v

/-- The canonical form: addresses strictly rising and inside memory, and no byte listed that reads the same unlisted. -/
abbrev Memory.wf (m : Memory) : Prop :=
  m.Pairwise (fun c d => c.1 < d.1) ∧ ∀ c ∈ m, c.1 < memSize ∧ c.2 ≠ Memory.unlisted c.1

/-- Whether an access of `n` bytes from `base` passes the bounds check byte by byte: the first failing address, if any (R55). -/
def firstOutOfRange (base n : Nat) : Option Nat :=
  ((List.range n).map (base + ·)).find? (fun a => decide (memSize ≤ a))

/-- Stores bytes at consecutive addresses, in increasing order (R186). -/
def Memory.putAll : Memory → Nat → List Byte → Memory
  | m, _, [] => m
  | m, a, v :: rest => Memory.putAll (Memory.put m a v) (a + 1) rest

/-- As `Memory.putAll`, for those bytes only that `pick` chooses by their offset, counted from `k`. -/
def Memory.putSome (pick : Nat → Bool) : Memory → Nat → Nat → List Byte → Memory
  | m, _, _, [] => m
  | m, a, k, v :: rest => Memory.putSome pick (if pick k then Memory.put m a v else m) (a + 1) (k + 1) rest

/-! ## Display (60_exceptions.md R262) -/

/-- `Disp.get(x, y)`. -/
def Display.get (d : Display) (x : Fin 64) (y : Fin 32) : Bool := d[y.val][x.val]

/-- `Disp.set(x, y, b)`. -/
def Display.set (d : Display) (x : Fin 64) (y : Fin 32) (b : Bool) : Display :=
  Vector.set d y.val (Vector.set d[y.val] x.val b)

/-- `Disp.clear()`: every pixel becomes 0. -/
def Display.clear (_ : Display) : Display := Display.blank

/-- Pixel by pixel, the new display where `pick` says so and the old one elsewhere; `pick` numbers pixels row by row. -/
def Display.mix (pick : Nat → Bool) (old new : Display) : Display :=
  Vector.ofFn fun y : Fin 32 => Vector.ofFn fun x : Fin 64 =>
    if pick (y.val * 64 + x.val) then Display.get new x y else Display.get old x y

/-! ## One update per field -/

/-- `V[r] <- b` (R11). -/
def State.setV (s : State) (r : Reg) (b : Byte) : State := { s with v := s.v.set r.val b }

/-- Replaces the whole register file. -/
def State.setRegs (s : State) (v : Vector Byte 16) : State := { s with v := v }

/-- `I <- w` (R23). -/
def State.setI (s : State) (w : Word) : State := { s with i := w }

/-- `PC <- w` (R24). -/
def State.setPc (s : State) (w : Word) : State := { s with pc := w }

/-- Replaces the call stack. -/
def State.setStack (s : State) (l : List Word) : State := { s with stack := l }

/-- `DT <- b` (R30). -/
def State.setDt (s : State) (b : Byte) : State := { s with dt := b }

/-- `ST <- b` (R30). -/
def State.setSt (s : State) (b : Byte) : State := { s with st := b }

/-- Replaces the memory. -/
def State.setMem (s : State) (m : Memory) : State := { s with mem := m }

/-- Replaces the display. -/
def State.setDisplay (s : State) (d : Display) : State := { s with display := d }

/-- Moves the engine (R100). -/
def State.setEngine (s : State) (e : Engine) : State := { s with engine := e }

/-- Keeps the opcode of the cycle in progress (R36). -/
def State.setOpcode (s : State) (o : Option Word) : State := { s with opcode := o }

/-- Keeps the Cycle Context just built (R109). -/
def State.setContext (s : State) (c : Option CycleContext) : State := { s with context := c }

/-- Replaces the observers. -/
def State.setObservers (s : State) (l : List Observer) : State := { s with observers := l }

/-- Replaces the parameters; no step does. -/
def State.setParams (s : State) (p : Params) : State := { s with params := p }

/-- Replaces the schedule feed. -/
def State.setSchedule (s : State) (f : Feed Event) : State := { s with schedule := f }

/-- Replaces the key state feed. -/
def State.setKeypad (s : State) (f : Feed Keypad) : State := { s with keypad := f }

/-- Replaces the poll feed. -/
def State.setPolls (s : State) (f : Feed (Option Key)) : State := { s with polls := f }

/-- Replaces the random feed. -/
def State.setRandom (s : State) (f : Feed Byte) : State := { s with random := f }

/-- Replaces the shouldHalt() feed. -/
def State.setHalts (s : State) (f : Feed Bool) : State := { s with halts := f }

/-- Replaces the count of part-way faults. -/
def State.setTorn (s : State) (n : Nat) : State := { s with torn := n }

/-! ## Registers -/

/-- `V[r]` (R11, R20). -/
def State.V (s : State) (r : Reg) : Byte := s.v[r.val]

/-- The address of the instruction in progress, A = PC - 2 while its handler runs (R12, R106). -/
def State.instrAddr (s : State) : Word := s.pc - 2

/-- `Skip()` when the condition holds (R11, R138). -/
def State.skipIf (s : State) (c : Bool) : State := if c then s.setPc (s.pc + 2) else s

/-! ## Fatal conditions (60_exceptions.md) -/

/-- `raise Fatal(d)`: the engine moves to Halted(Fatal) with the diagnostic and nothing else changes (R240, R249; DESIGN CHOICE, safe: log entry 9). It is the only
exception mechanism; there is no handler, no saved state and no return (R240, R250). -/
def State.raise (s : State) (d : Diagnostic) : State := s.setEngine (.halted (.fatal d))

/-- Whether a fatal condition has ended this machine. -/
def Engine.isHalted : Engine → Bool
  | .halted _ => true
  | _ => false

/-- The `k`-th free choice of the part-way fault about to happen: does location `k` hold its new value (R249; DESIGN CHOICE, safe: log entry 12)? -/
def State.keepsNew (s : State) (k : Nat) : Bool := Config.tornNew s.torn k

/-- Counts one part-way fault, so that the next one's choices are fresh. -/
def State.countTorn (s : State) : State := s.setTorn (s.torn + 1)

/-! ## Call stack (R28, R29) -/

/-- `Push(w)`. -/
def State.push (s : State) (w : Word) : State := s.setStack (w :: s.stack)

/-- The stack holds as many entries as a finite STACK_DEPTH allows (R29, R132). -/
def State.stackFull (s : State) : Bool :=
  match s.params.stackDepth with
  | .unbounded => false
  | .limit d => s.stack.length == d

/-! ## Timers (R253, R254) -/

/-- A countdown register after one tick: one less, floor at zero. -/
def countDown (b : Byte) : Byte := if b = 0 then b else b - 1

/-- `DelayTick()` (R253). -/
def State.delayTick (s : State) : State := s.setDt (countDown s.dt)

/-- `SoundTick()` (R254). -/
def State.soundTick (s : State) : State := s.setSt (countDown s.st)

/-! ## Ports -/

/-- The next answer of a port: the first one injected, or else the free value (DESIGN CHOICE, safe: log
entry 10). -/
def Feed.answer {α : Type} (free : Nat → α) (f : Feed α) : α :=
  match f.queued with
  | a :: _ => a
  | [] => free f.drawn

/-- The port after one answer is taken. -/
def Feed.advance {α : Type} (f : Feed α) : Feed α := { queued := f.queued.tail, drawn := f.drawn + 1 }

/-- The answer `Keys.pressed(k)` gives to the query about to be made: the key state at that moment, read at key k (R263). -/
def State.keyPressed (s : State) (k : Key) : Bool := (s.keypad.answer Config.keypad)[k.val]

/-- The state after one key query. -/
def State.afterKeyQuery (s : State) : State := s.setKeypad s.keypad.advance

/-- The answer of `Keys.poll()` (R264). -/
def State.polledKey (s : State) : Option Key := s.polls.answer Config.pollAnswer

/-- The state after one poll; a key it returned is consumed (R264). -/
def State.afterPoll (s : State) : State := s.setPolls s.polls.advance

/-- The byte of `Rand()` (R265). -/
def State.randomByte (s : State) : Byte := s.random.answer Config.randomByte

/-- The state after one draw of a random byte. -/
def State.afterRandom (s : State) : State := s.setRandom s.random.advance

end Sys2Proof.Machine
end

