-- ==== Sys2Proof/Machine/Operands.lean ====
section
/-! DEFINITION. The operand forms: zero-extended address and offset operands (30_encoding.md R74), the key number in a register
(60_exceptions.md R246), and the one data addressing mode I + k with its loads and stores (43_index_memory.md R186). -/

namespace Sys2Proof.Machine

open Sys2Proof.Config

/-- `nnn`, zero-extended to 16 bits (R74). -/
def addrOperand (nnn : Addr) : Word := BitVec.ofNat 16 nnn.toNat

/-- `V[0] + nnn`, not masked to 12 bits (R137). -/
def State.offsetTarget (s : State) (nnn : Addr) : Word := BitVec.ofNat 16 ((s.V 0).toNat + nnn.toNat)

/-- The key a register names, if it names one: `k > 15` is no key (R246). -/
def keyOperand (b : Byte) : Option Key := if h : b.toNat < 16 then some ⟨b.toNat, h⟩ else none

/-- The effective address `I + k`, an unbounded natural (R56, R186). -/
def State.ea (s : State) (k : Nat) : Nat := s.i.toNat + k

/-- The first address out of bounds among the `n` bytes from I, if any (R55, R186, R248). -/
def State.dataOutOfRange (s : State) (n : Nat) : Option Nat := firstOutOfRange s.i.toNat n

/-- Raises MEM_OOB for a data access (R245). -/
def State.raiseMem (s : State) (op : Access) (a : Nat) : State := s.raise (.memOob op a s.instrAddr)

/-- Stores the bytes at I, I + 1, ... (R183, R185, R186). When one is out of bounds, each byte in bounds holds its old or its new
value (R249; DESIGN CHOICE, safe: log entry 12). -/
def State.storeAtI (s : State) (bytes : List Byte) : State :=
  match s.dataOutOfRange bytes.length with
  | none => s.setMem (Memory.putAll s.mem s.i.toNat bytes)
  | some a =>
    ((s.setMem (Memory.putSome (fun k => decide (s.ea k < memSize) && s.keepsNew k) s.mem s.i.toNat 0 bytes)).countTorn).raiseMem
      .write a

/-- The values of V[0] to V[x] in order, x + 1 bytes (R185). -/
def State.firstRegs (s : State) (x : Reg) : List Byte := ((List.finRange 16).take (x.val + 1)).map s.V

/-- The register file after V[0] to V[x] take the bytes at I to I + x wherever `take` allows (R184). -/
def State.loadedRegs (s : State) (x : Reg) (take : Nat → Bool) : Vector Byte 16 :=
  Vector.ofFn fun r : Fin 16 => if r ≤ x ∧ take r.val then Memory.get s.mem (s.ea r.val) else s.V r

/-- Loads V[0] to V[x] from I, I + 1, ... (R184). When a byte is out of bounds, each register whose byte is in bounds holds its
old or its new value (R249; DESIGN CHOICE, safe: log entry 12; DEDUCED, unsafe: log entry 13). -/
def State.loadAtI (s : State) (x : Reg) : State :=
  match s.dataOutOfRange (x.val + 1) with
  | none => s.setRegs (s.loadedRegs x fun _ => true)
  | some a =>
    ((s.setRegs (s.loadedRegs x fun k => decide (s.ea k < memSize) && s.keepsNew k)).countTorn).raiseMem .read a

end Sys2Proof.Machine
end

