-- ==== Sys2Proof/Machine/Control.lean ====
section
/-! DEFINITION. Control transfer (41_control.md). PC holds A + 2 when a handler starts (00_scope.md R12). -/

namespace Sys2Proof.Machine

/-- What an instruction answers. -/
abbrev Result := Host.Outcome State Fault Refusal

/-- RET (R130): pops the return address; STACK_UNDERFLOW on an empty stack. -/
def execRet (s : State) : Result :=
  match s.stack with
  | [] => .next (s.raise (.stackUnderflow s.instrAddr))
  | w :: rest => .next ((s.setStack rest).setPc w)

/-- JMP nnn (R131). -/
def execJmp (nnn : Addr) (s : State) : Result := .next (s.setPc (addrOperand nnn))

/-- CALL nnn (R132): pushes PC, which is A + 2; STACK_OVERFLOW on a stack that a finite STACK_DEPTH says is full. -/
def execCall (nnn : Addr) (s : State) : Result :=
  .next (if s.stackFull then s.raise (.stackOverflow s.instrAddr) else (s.push s.pc).setPc (addrOperand nnn))

/-- SE Vx, kk (R133). -/
def execSe (x : Reg) (kk : Byte) (s : State) : Result := .next (s.skipIf (s.V x == kk))

/-- SNE Vx, kk (R134). -/
def execSne (x : Reg) (kk : Byte) (s : State) : Result := .next (s.skipIf (s.V x != kk))

/-- SER Vx, Vy (R135). -/
def execSer (x y : Reg) (s : State) : Result := .next (s.skipIf (s.V x == s.V y))

/-- SNER Vx, Vy (R136). -/
def execSner (x y : Reg) (s : State) : Result := .next (s.skipIf (s.V x != s.V y))

/-- JMPO nnn (R137). -/
def execJmpo (nnn : Addr) (s : State) : Result := .next (s.setPc (s.offsetTarget nnn))

end Sys2Proof.Machine
end

