-- ==== Sys2Proof/Machine/Flags.lean ====
section
/-! DEFINITION. The values the instructions write to VF: exactly 0 or 1 (42_alu.md R162, 10_state.md R21). -/

namespace Sys2Proof.Machine

/-- A flag value: 1 when the condition holds, else 0 (R162). -/
def flag (c : Bool) : Byte := if c then 1 else 0

/-- ADDR's carry: the sum is above 255 (R153). -/
def carryFlag (a b : Byte) : Byte := flag (decide (a.toNat + b.toNat > 255))

/-- SUB's "no borrow" of `a - b`: `a >= b`, unsigned (R154, R155). -/
def noBorrowFlag (a b : Byte) : Byte := flag (decide (b.toNat ≤ a.toNat))

/-- The bit SHR shifts out, bit 0 (R159). -/
def lowBitFlag (a : Byte) : Byte := flag (a.toNat % 2 == 1)

/-- The bit SHL shifts out, bit 7 (R160). -/
def highBitFlag (a : Byte) : Byte := flag (decide (a.toNat ≥ 128))

/-- Writes the flag register (R21). -/
def State.setFlag (s : State) (b : Byte) : State := s.setV VF b

/-- Writes a result and then the flag, so that VF ends as the flag when x = 0xF (R163). -/
def State.setResultThenFlag (s : State) (x : Reg) (result f : Byte) : State := (s.setV x result).setFlag f

/-- Writes a shift's result and its flag (R159, R160): `op` is the shift, `out` the bit shifted out. With x = 0xF the final VF
depends on SHIFT_VF_ALIAS (DESIGN CHOICE, safe: log entry 7). -/
def State.shift (s : State) (x : Reg) (op out : Byte → Byte) : State :=
  if x = VF then
    s.setFlag (match s.params.shiftVf with
      | .resultLast => op (s.V x)
      | .reread => op (out (s.V x))
      | .flagLast => out (s.V x))
  else (s.setFlag (out (s.V x))).setV x (op (s.V x))

end Sys2Proof.Machine
end

