-- ==== Sys2Proof/Machine/Alu.lean ====
section
/-! DEFINITION. Register and arithmetic instructions (42_alu.md): operands are read before anything is written, exact integer
results are narrowed mod 256, and the flag is written last (R162, R163). -/

namespace Sys2Proof.Machine

/-- SET Vx, kk (R150). -/
def execSet (x : Reg) (kk : Byte) (s : State) : Result := .next (s.setV x kk)

/-- SETR Vx, Vy (R151). -/
def execSetr (x y : Reg) (s : State) : Result := .next (s.setV x (s.V y))

/-- ADD Vx, kk (R152): no flag. -/
def execAdd (x : Reg) (kk : Byte) (s : State) : Result :=
  .next (s.setV x (BitVec.ofNat 8 ((s.V x).toNat + kk.toNat)))

/-- ADDR Vx, Vy (R153): VF = carry. -/
def execAddr (x y : Reg) (s : State) : Result :=
  .next (s.setResultThenFlag x (BitVec.ofNat 8 ((s.V x).toNat + (s.V y).toNat)) (carryFlag (s.V x) (s.V y)))

/-- SUB Vx, Vy (R154): VF = no borrow of V[x] - V[y]. -/
def execSub (x y : Reg) (s : State) : Result :=
  .next (s.setResultThenFlag x (BitVec.ofInt 8 ((s.V x).toNat - (s.V y).toNat)) (noBorrowFlag (s.V x) (s.V y)))

/-- SUBR Vx, Vy (R155): VF = no borrow of V[y] - V[x]. -/
def execSubr (x y : Reg) (s : State) : Result :=
  .next (s.setResultThenFlag x (BitVec.ofInt 8 ((s.V y).toNat - (s.V x).toNat)) (noBorrowFlag (s.V y) (s.V x)))

/-- OR Vx, Vy (R156): VF untouched. -/
def execOr (x y : Reg) (s : State) : Result := .next (s.setV x (s.V x ||| s.V y))

/-- AND Vx, Vy (R157): VF untouched. -/
def execAnd (x y : Reg) (s : State) : Result := .next (s.setV x (s.V x &&& s.V y))

/-- XOR Vx, Vy (R158): VF untouched. -/
def execXor (x y : Reg) (s : State) : Result := .next (s.setV x (s.V x ^^^ s.V y))

/-- SHR Vx (R159): logical shift right by one, VF = bit 0. -/
def execShr (x : Reg) (s : State) : Result :=
  .next (s.shift x (fun a => BitVec.ofNat 8 (a.toNat / 2)) lowBitFlag)

/-- SHL Vx (R160): shift left by one mod 256, VF = bit 7. -/
def execShl (x : Reg) (s : State) : Result :=
  .next (s.shift x (fun a => BitVec.ofNat 8 (a.toNat * 2)) highBitFlag)

/-- RAND Vx, kk (R161): one draw, masked. -/
def execRand (x : Reg) (kk : Byte) (s : State) : Result := .next (s.afterRandom.setV x (s.randomByte &&& kk))

end Sys2Proof.Machine
end

