-- ==== Sys2Proof/Machine/DisplayInstrs.lean ====
section
/-! DEFINITION. Display instructions (44_display.md): CLS, and DRAW as the loops of R201. -/

namespace Sys2Proof.Machine

/-- CLS (R200). -/
def execCls (s : State) : Result := .next (s.setDisplay (Display.clear s.display))

/-- Column `c` of a sprite row: bit 7 - c, the most significant bit leftmost (R202). -/
def spriteBit (b : Byte) (c : Nat) : Bool := b.getLsbD (7 - c)

/-- A display being drawn on, and whether a pixel has gone from 1 to 0 (R201). -/
abbrev Canvas := Display × Bool

/-- One step of DRAW's inner loop: a pixel outside the grid is skipped, one inside becomes `old ^ bit` (R201). -/
def drawPixel (g : Canvas) (px py : Nat) (bit : Bool) : Canvas :=
  if h : px < 64 ∧ py < 32 then
    let old := Display.get g.1 ⟨px, h.1⟩ ⟨py, h.2⟩
    let new := old ^^ bit
    (Display.set g.1 ⟨px, h.1⟩ ⟨py, h.2⟩ new, g.2 || (old && !new))
  else g

/-- One row of a sprite: its eight columns from `cx` (R201). -/
def drawRow (g : Canvas) (cx py : Nat) (b : Byte) : Canvas :=
  (List.range 8).foldl (fun g c => drawPixel g (cx + c) py (spriteBit b c)) g

/-- The rows of a sprite, from the byte at `base` and the grid row `cy` on (R201). -/
def drawRows (m : Memory) (base cx cy : Nat) (rows : Nat) (g : Canvas) : Canvas :=
  (List.range rows).foldl (fun g r => drawRow g cx (cy + r) (Memory.get m (base + r))) g

/-- DRAW's start column and row, taken before VF is cleared (R201, R204). -/
def State.startColumn (s : State) (x : Reg) : Nat := (s.V x).toNat % 64

/-- See `State.startColumn`. -/
def State.startRow (s : State) (y : Reg) : Nat := (s.V y).toNat % 32

/-- The display and collision flag after `rows` rows of the sprite at I are drawn. -/
def State.drawn (s : State) (x y : Reg) (rows : Nat) : Canvas :=
  drawRows s.mem s.i.toNat (s.startColumn x) (s.startRow y) rows (s.display, false)

/-- How many of `n` row bytes are in bounds. -/
def State.rowsInRange (s : State) (n : Nat) : Nat := min n (memSize - s.i.toNat)

/-- VF after a DRAW that faulted part-way: its old value, or one the instruction writes on the way: the cleared 0 or the collision
flag of the rows in bounds (R249; DEDUCED, unsafe: log entry 13). Pixels take the choices 0 to 2047. -/
def State.tornFlag (s : State) (collided : Bool) : Byte :=
  if s.keepsNew 2048 then (if s.keepsNew 2049 then flag collided else flag false) else s.V VF

/-- DRAW Vx, Vy, n (R201, R203): every row byte is checked; VF = 1 if a drawn pixel went from 1 to 0. When a row byte is out of
bounds, the pixels of the rows in bounds and VF hold old or new values (R249). -/
def execDraw (x y : Reg) (n : Rows) (s : State) : Result :=
  .next (match s.dataOutOfRange n.val with
    | none => (s.setDisplay (s.drawn x y n.val).1).setFlag (flag (s.drawn x y n.val).2)
    | some a =>
      let g := s.drawn x y (s.rowsInRange n.val)
      ((((s.setDisplay (Display.mix s.keepsNew s.display g.1)).setFlag (s.tornFlag g.2)).countTorn).raiseMem .read a))

end Sys2Proof.Machine
end

