-- ==== Sys2Proof/Machine/IndexMem.lean ====
section
/-! DEFINITION. Address register and memory instructions (43_index_memory.md). No access changes I (R186). -/

namespace Sys2Proof.Machine

/-- LDA nnn (R180). -/
def execLda (nnn : Addr) (s : State) : Result := .next (s.setI (addrOperand nnn))

/-- ADDA Vx (R181): wraps mod 65536, no flag. -/
def execAdda (x : Reg) (s : State) : Result := .next (s.setI (BitVec.ofNat 16 (s.i.toNat + (s.V x).toNat)))

/-- LDSA Vx (R182): the whole V[x] times 5. -/
def execLdsa (x : Reg) (s : State) : Result := .next (s.setI (BitVec.ofNat 16 ((s.V x).toNat * 5)))

/-- The three decimal digits of a byte, hundreds first (R183). -/
def decimalDigits (b : Byte) : List Byte :=
  [BitVec.ofNat 8 (b.toNat / 100), BitVec.ofNat 8 (b.toNat / 10 % 10), BitVec.ofNat 8 (b.toNat % 10)]

/-- STDR Vx (R183). -/
def execStdr (x : Reg) (s : State) : Result := .next (s.storeAtI (decimalDigits (s.V x)))

/-- LDRD Vx (R184). -/
def execLdrd (x : Reg) (s : State) : Result := .next (s.loadAtI x)

/-- STRD Vx (R185). -/
def execStrd (x : Reg) (s : State) : Result := .next (s.storeAtI (s.firstRegs x))

end Sys2Proof.Machine
end

