-- ==== Sys2Proof/Machine/KeysTimers.lean ====
section
/-! DEFINITION. Key and timer instructions (45_keys_timers.md). -/

namespace Sys2Proof.Machine

/-- A key test: KEY_RANGE before any query when V[x] > 15 (R246), else one query and a skip when the answer is `want` (R263). -/
def State.keyTest (s : State) (x : Reg) (op : KeyTest) (want : Bool) : State :=
  match keyOperand (s.V x) with
  | none => s.raise (.keyRange op s.instrAddr (s.V x))
  | some k => s.afterKeyQuery.skipIf (s.keyPressed k == want)

/-- SKP Vx (R220). -/
def execSkp (x : Reg) (s : State) : Result := .next (s.keyTest x .skp true)

/-- SKNP Vx (R221): one query, read as `not pressed`. -/
def execSknp (x : Reg) (s : State) : Result := .next (s.keyTest x .sknp false)

/-- LDDT Vx (R222, R226). -/
def execLddt (x : Reg) (s : State) : Result := .next (s.setV x s.dt)

/-- STDT Vx (R223, R226). -/
def execStdt (x : Reg) (s : State) : Result := .next (s.setDt (s.V x))

/-- STST Vx (R224). -/
def execStst (x : Reg) (s : State) : Result := .next (s.setSt (s.V x))

/-- LDKP Vx (R225): one poll; with no key PC goes back to the instruction, else the key goes to V[x]. -/
def execLdkp (x : Reg) (s : State) : Result :=
  .next (match s.polledKey with
    | none => s.afterPoll.setPc (s.pc - 2)
    | some k => s.afterPoll.setV x (BitVec.ofNat 8 k.val))

end Sys2Proof.Machine
end

