-- ==== Sys2Proof/Machine/Dispatch.lean ====
section
/-! DEFINITION. The fixed dispatch table from instruction kind to handler (40_cycle.md R113). -/

namespace Sys2Proof.Machine

def exec (i : Instr) (s : State) : Host.Outcome State Fault Refusal :=
  match i with
  | .cls => Sys2Proof.Machine.execCls s
  | .ret => Sys2Proof.Machine.execRet s
  | .jmp nnn => Sys2Proof.Machine.execJmp nnn s
  | .call nnn => Sys2Proof.Machine.execCall nnn s
  | .se x kk => Sys2Proof.Machine.execSe x kk s
  | .sne x kk => Sys2Proof.Machine.execSne x kk s
  | .ser x y => Sys2Proof.Machine.execSer x y s
  | .sner x y => Sys2Proof.Machine.execSner x y s
  | .set x kk => Sys2Proof.Machine.execSet x kk s
  | .setr x y => Sys2Proof.Machine.execSetr x y s
  | .add x kk => Sys2Proof.Machine.execAdd x kk s
  | .addr x y => Sys2Proof.Machine.execAddr x y s
  | .sub x y => Sys2Proof.Machine.execSub x y s
  | .subr x y => Sys2Proof.Machine.execSubr x y s
  | .or x y => Sys2Proof.Machine.execOr x y s
  | .and x y => Sys2Proof.Machine.execAnd x y s
  | .xor x y => Sys2Proof.Machine.execXor x y s
  | .shr x _ => Sys2Proof.Machine.execShr x s
  | .shl x _ => Sys2Proof.Machine.execShl x s
  | .lda nnn => Sys2Proof.Machine.execLda nnn s
  | .jmpo nnn => Sys2Proof.Machine.execJmpo nnn s
  | .rand x kk => Sys2Proof.Machine.execRand x kk s
  | .draw x y n => Sys2Proof.Machine.execDraw x y n s
  | .skp x => Sys2Proof.Machine.execSkp x s
  | .sknp x => Sys2Proof.Machine.execSknp x s
  | .lddt x => Sys2Proof.Machine.execLddt x s
  | .stdt x => Sys2Proof.Machine.execStdt x s
  | .stst x => Sys2Proof.Machine.execStst x s
  | .ldkp x => Sys2Proof.Machine.execLdkp x s
  | .adda x => Sys2Proof.Machine.execAdda x s
  | .ldsa x => Sys2Proof.Machine.execLdsa x s
  | .stdr x => Sys2Proof.Machine.execStdr x s
  | .ldrd x => Sys2Proof.Machine.execLdrd x s
  | .strd x => Sys2Proof.Machine.execStrd x s

end Sys2Proof.Machine
end

