-- ==== Sys2Proof/Machine/Cycle.lean ====
section
/-! DEFINITION. One execution cycle (40_cycle.md R115), the timer ticks, the choice of what comes next (60_exceptions.md R255), and
one step of the machine. -/

namespace Sys2Proof.Machine

open Sys2Proof.Config

/-! ## Fetch (R51, R105) -/

/-- The first of PC and PC + 1 that is out of bounds, if any (R55, R105). -/
def State.fetchOutOfRange (s : State) : Option Nat := firstOutOfRange s.pc.toNat 2

/-- The opcode at PC, high byte first (R51). -/
def State.opcodeAtPc (s : State) : Word :=
  joinBytes (Memory.get s.mem s.pc.toNat) (Memory.get s.mem (s.pc.toNat + 1))

/-- The state after a successful fetch: PC is A + 2 and the opcode is kept (R36, R106; DEDUCED, unsafe: log entry
16). -/
def State.advance (s : State) : State := (s.setOpcode (some s.opcodeAtPc)).setPc (s.pc + 2)

/-! ## Snapshot and notify (R109, R110, R111) -/

/-- The Cycle Context: copies of memory, V, I, PC, DT, ST and the opcode just executed (R267). -/
def CycleContext.of (s : State) (opcode : Word) : CycleContext :=
  { mem := s.mem, v := s.v, i := s.i, pc := s.pc, dt := s.dt, st := s.st, opcode := opcode }

/-- `onCycle(context)` of one observer (R266). -/
def Observer.onCycle (c : CycleContext) (o : Observer) : Observer := { calls := o.calls + 1, last := some c }

/-- Polls shouldHalt() of `n` observers in registration order: whether any answered true, and the port after it (R110, R111). -/
def pollHalts : Nat → Feed Bool → Bool × Feed Bool
  | 0, f => (false, f)
  | n + 1, f => ((f.answer Config.haltAnswer || (pollHalts n f.advance).1), (pollHalts n f.advance).2)

/-- The end of a completed cycle: the snapshot is built, every observer is notified in registration order, and the engine halts if
any asked for it (R109 to R111). -/
def State.notify (s : State) (opcode : Word) : State :=
  let c := CycleContext.of s opcode
  let asked := pollHalts s.observers.length s.halts
  let s' := ((s.setContext (some c)).setObservers (s.observers.map (Observer.onCycle c))).setHalts asked.2
  if asked.1 then s'.setEngine (.halted .observer) else s'

/-- After the handler: a fatal condition ends the cycle at once, without snapshot or notification (R116). -/
def State.finishCycle (s : State) (opcode : Word) : State := if s.engine.isHalted then s else s.notify opcode

/-! ## The cycle and the ticks -/

/-- Dispatch of a fetched opcode, in the state after the advance (R107, R108). -/
def dispatch (opcode : Word) (s : State) : Result :=
  match decode s.params.looseDecode opcode with
  | none => .next (s.raise (.unsupported opcode s.instrAddr))
  | some i => exec i s

/-- Ends a cycle whose handler answered. -/
def completeCycle (opcode : Word) : Result → Result
  | .next s => .next (s.finishCycle opcode)
  | .fault f => .fault f
  | .refused r => .refused r

/-- One execution cycle (R115). -/
def execCycle (s : State) : Result :=
  match s.fetchOutOfRange with
  | some a => .next (s.raise (.memOob .fetch a s.pc))
  | none => completeCycle s.opcodeAtPc (dispatch s.opcodeAtPc s.advance)

/-- One tick of a clock, or one manual cycle or tick by the host (R118, R253 to R255;
DEDUCED, safe: log entry 15). -/
def runTick (t : Tick) (s : State) : Result :=
  match t with
  | .cycle => execCycle s
  | .delay => .next s.delayTick
  | .sound => .next s.soundTick

/-! ## What comes next -/

/-- What a Ready or Running machine does next: what the schedule holds, or else a free choice of the host (Ready) or of the
arbitrator (Running) (R102, R118, R255; DESIGN CHOICE, safe: log entry 11). -/
def State.nextEvent (s : State) : Event :=
  match s.schedule.queued with
  | e :: _ => e
  | [] => match s.engine with
    | .ready => Config.hostAction s.schedule.drawn
    | _ => .tick (Config.arbiter s.schedule.drawn)

/-- The state once that choice is taken. -/
def State.afterEvent (s : State) : State := s.setSchedule s.schedule.advance

/-- The host's start operation (R102): only a Ready machine can be started (R268). -/
def startEngine (s : State) : Result :=
  match s.engine with
  | .ready => .next (s.setEngine .running)
  | _ => .refused .startNotReady

/-- Does what comes next. -/
def runEvent (e : Event) (s : State) : Result :=
  match e with
  | .start => startEngine s
  | .tick t => runTick t s

/-- One step. A Halted machine has none: it is stuck, and what is requested of it is refused (R104, R118, R258). -/
def stepMachine (s : State) : Result :=
  match s.engine with
  | .halted _ => if s.schedule.queued = [] then .fault .stuckHalted else .refused .haltedMachine
  | _ => runEvent s.nextEvent s.afterEvent

/-! ## Placing an instruction (DESIGN CHOICE, safe: log entry 1) -/

/-- The engine with a Halted machine made Ready, for placing an instruction only. -/
def Engine.revived (e : Engine) : Engine := if e.isHalted then .ready else e

/-- `s` with a word stored at its PC, high byte first, and an execution cycle as what comes next. A Halted engine is made Ready,
and a PC at which no fetch succeeds is moved to 0x200. -/
def State.placeWord (s : State) (w : Word) : State :=
  let s' := if s.fetchOutOfRange = none then s else s.setPc 0x200
  ((s'.setMem (Memory.putAll s'.mem s'.pc.toNat [highByte w, lowByte w])).setEngine s'.engine.revived).setSchedule
    { s'.schedule with queued := .tick .cycle :: s'.schedule.queued }

end Sys2Proof.Machine
end

