-- ==== Sys2Proof/Machine/Step.lean ====
section
/-! DEFINITION. The step function, and the placing of one instruction where the next step fetches (log entry 1). -/

namespace Sys2Proof.Machine

/-- One atomic step of the machine (60_exceptions.md R255). -/
def step (s : State) : Host.Outcome State Fault Refusal := stepMachine s

/-- `s` with the one 16-bit instruction whose bits are `w` (the bits from `nbits` up are 0) placed so that the very next step runs
it. -/
def State.withFetchWord (s : State) (nbits w : Nat) : State := s.placeWord (BitVec.ofNat 16 (w % 2 ^ nbits))

end Sys2Proof.Machine
end

