-- ==== Sys2Proof/Machine/Construct.lean ====
section
/-! DEFINITION. Construction, the machine's only reset (70_reset_and_hazards.md R280 to R283), for every value of the parameters of
00_scope.md R8 and every program image. -/

namespace Sys2Proof.Machine

open Sys2Proof.Config

/-- What the host hands to construction besides the image (R8, R268). -/
structure Setup where
  params : Params
  /-- FONT: 80 bytes. -/
  font : List Byte
  /-- INIT_V. -/
  initV : Vector Byte 16
  /-- INIT_I. -/
  initI : Word
  /-- INIT_DT. -/
  initDt : Byte
  /-- INIT_ST. -/
  initSt : Byte
  /-- MEM_INIT: the bytes before the font and the image are loaded. -/
  memInit : Memory
  /-- DISPLAY_INIT. -/
  displayInit : Display
  /-- How many observers are registered. -/
  observers : Nat
  deriving DecidableEq, Repr

/-- The domains of R8: the parameters', an 80-byte font, and an initial memory that is one. -/
abbrev Setup.wf (c : Setup) : Prop := c.params.wf ∧ c.font.length = 80 ∧ Memory.wf c.memInit

/-- An observer that has been registered and not called yet (R266). -/
def Observer.registered : Observer := { calls := 0, last := none }

/-- The values State.reset takes (log entries 2 to 8). -/
def Setup.default : Setup :=
  { params := Params.default
    font := classicFont
    initV := Vector.replicate 16 0
    initI := 0
    initDt := 0
    initSt := 0
    memInit := []
    displayInit := Display.blank
    observers := 0 }

/-- The memory with the font at 0x000 and the image at 0x200 (R280 to R282). -/
def loadedMemory (c : Setup) (image : List Byte) : Memory :=
  Memory.putAll (Memory.putAll c.memInit 0 c.font) progBase image

/-- The Ready machine of R280. -/
def builtMachine (c : Setup) (image : List Byte) : State :=
  { v := c.initV
    i := c.initI
    pc := BitVec.ofNat 16 progBase
    stack := []
    dt := c.initDt
    st := c.initSt
    mem := loadedMemory c image
    display := c.displayInit
    engine := .ready
    opcode := none
    context := none
    observers := List.replicate c.observers Observer.registered
    params := c.params
    schedule := Feed.empty
    keypad := Feed.empty
    polls := Feed.empty
    random := Feed.empty
    halts := Feed.empty
    torn := 0 }

/-- Construction (R280): a machine, or a construction error and no machine (R247, R282). -/
def construct (c : Setup) (image : List Byte) : Host.Outcome State Fault Refusal :=
  if progMax < image.length then .refused .imageTooLarge
  else if c.wf then .next (builtMachine c image)
  else .refused .badParameters

end Sys2Proof.Machine
end

