-- ==== Sys2Proof/Safety.lean ====
section
/-! DEFINITION. The terms claims are stated in: parts of the state and what leaves them unchanged, which parts an instruction may
write, the machine's invariant, runs and weak fairness. -/

namespace Sys2Proof

open Sys2Proof.Machine Sys2Proof.Config

/-! ## Encodings -/

/-- The word `w` stands for `i`, whatever LOOSE_DECODE is (R75, R81). -/
def Encodes (i : Instr) (w : Nat) : Prop := ∀ loose, decode loose (BitVec.ofNat 16 w) = some i

/-! ## Frames -/

/-- The parts of the state: one per general register and one per other field. -/
inductive Part where
  | v (r : Reg)
  | i
  | pc
  | stack
  | dt
  | st
  | mem
  | display
  | engine
  | opcode
  | context
  | observers
  | params
  | schedule
  | keypad
  | polls
  | random
  | halts
  | torn
  deriving DecidableEq, Repr

/-- A part reads the same in both states; memory byte by byte, the display pixel by pixel. -/
def Part.same : Part → State → State → Prop
  | .v r, s, t => t.V r = s.V r
  | .i, s, t => t.i = s.i
  | .pc, s, t => t.pc = s.pc
  | .stack, s, t => t.stack = s.stack
  | .dt, s, t => t.dt = s.dt
  | .st, s, t => t.st = s.st
  | .mem, s, t => ∀ a, Memory.get t.mem a = Memory.get s.mem a
  | .display, s, t => ∀ x y, Display.get t.display x y = Display.get s.display x y
  | .engine, s, t => t.engine = s.engine
  | .opcode, s, t => t.opcode = s.opcode
  | .context, s, t => t.context = s.context
  | .observers, s, t => t.observers = s.observers
  | .params, s, t => t.params = s.params
  | .schedule, s, t => t.schedule = s.schedule
  | .keypad, s, t => t.keypad = s.keypad
  | .polls, s, t => t.polls = s.polls
  | .random, s, t => t.random = s.random
  | .halts, s, t => t.halts = s.halts
  | .torn, s, t => t.torn = s.torn

/-- Every part but those listed is unchanged from `s` to `t`. -/
def Unchanged (except : List Part) (s t : State) : Prop := ∀ p, p ∉ except → p.same s t

/-- The registers V[0] to V[x]. -/
def partsUpTo (x : Reg) : List Part := ((List.finRange 16).filter (· ≤ x)).map .v

/-- What the handler of each instruction may write, by the rules of 41_control.md to 45_keys_timers.md: destinations, VF where it is
a flag, the engine where it can raise a fatal condition, and the port it draws from. -/
def Instr.mayWrite : Instr → List Part
  | .cls => [.display]
  | .ret => [.pc, .stack, .engine]
  | .jmp _ => [.pc]
  | .call _ => [.pc, .stack, .engine]
  | .se _ _ => [.pc]
  | .sne _ _ => [.pc]
  | .ser _ _ => [.pc]
  | .sner _ _ => [.pc]
  | .set x _ => [.v x]
  | .setr x _ => [.v x]
  | .add x _ => [.v x]
  | .addr x _ => [.v x, .v VF]
  | .sub x _ => [.v x, .v VF]
  | .subr x _ => [.v x, .v VF]
  | .or x _ => [.v x]
  | .and x _ => [.v x]
  | .xor x _ => [.v x]
  | .shr x _ => [.v x, .v VF]
  | .shl x _ => [.v x, .v VF]
  | .lda _ => [.i]
  | .jmpo _ => [.pc]
  | .rand x _ => [.v x, .random]
  | .draw _ _ _ => [.display, .v VF, .engine, .torn]
  | .skp _ => [.pc, .keypad, .engine]
  | .sknp _ => [.pc, .keypad, .engine]
  | .lddt x => [.v x]
  | .stdt _ => [.dt]
  | .stst _ => [.st]
  | .ldkp x => [.pc, .v x, .polls]
  | .adda _ => [.i]
  | .ldsa _ => [.i]
  | .stdr _ => [.mem, .engine, .torn]
  | .ldrd x => [.engine, .torn] ++ partsUpTo x
  | .strd _ => [.mem, .engine, .torn]

/-- The next state of an outcome, changed by `f`; a stop stays as it is. -/
def mapNext (f : State → State) : Host.Outcome State Fault Refusal → Host.Outcome State Fault Refusal
  | .next s => .next (f s)
  | .fault e => .fault e
  | .refused r => .refused r

/-! ## Fatal ends and engine states -/

/-- The machine has halted on the fatal condition `d` (R240). -/
def HaltedOn (d : Diagnostic) (t : State) : Prop := t.engine = .halted (.fatal d)

/-- Ready or Running: the states in which a cycle or a tick may happen (R101, R118). -/
def Live (s : State) : Prop := s.engine.isHalted = false

/-- The two bytes of a fetch are in memory (R105). -/
def FetchInBounds (s : State) : Prop := s.pc.toNat + 1 < memSize

/-- The next step is a fetch that is fatal at address `a` (R105). -/
def FetchHaltsAt (a : Nat) (s : State) : Prop := ∃ t, step s = .next t ∧ HaltedOn (.memOob .fetch a s.pc) t

/-- The `n` bytes from I are in memory; no byte at all passes every check (R55, R186). -/
def DataInBounds (s : State) (n : Nat) : Prop := n = 0 ∨ s.i.toNat + n ≤ memSize

/-! ## DRAW in closed form -/

/-- The sprite of a DRAW with `rows` rows, seen at a grid pixel: 0 outside the sprite's columns and rows, else the bit of the row
byte, the most significant bit leftmost (R201, R202). -/
def spritePixel (s : State) (x y : Reg) (rows : Nat) (px : Fin 64) (py : Fin 32) : Bool :=
  let cx := (s.V x).toNat % 64
  let cy := (s.V y).toNat % 32
  decide (cx ≤ px.val ∧ px.val < cx + 8 ∧ cy ≤ py.val ∧ py.val < cy + rows) &&
    (Memory.get s.mem (s.i.toNat + (py.val - cy))).getLsbD (7 - (px.val - cx))

/-- Some lit pixel of the display lies under a 1 of the sprite: drawing it clears a pixel (R201). -/
def Collides (s : State) (x y : Reg) (rows : Nat) : Prop :=
  ∃ px py, Display.get s.display px py = true ∧ spritePixel s x y rows px py = true

/-! ## What an observer answers -/

/-- The answer of the `k`-th shouldHalt() from here on (R110, R266). -/
def haltAnswerAt (f : Feed Bool) (k : Nat) : Bool :=
  match f.queued[k]? with
  | some b => b
  | none => Config.haltAnswer (f.drawn + k)

/-- The `n` observers notified next include one that asks for a halt (R111). -/
def SomeoneHalts (f : Feed Bool) (n : Nat) : Prop := ∃ k, k < n ∧ haltAnswerAt f k = true

/-! ## The invariant -/

/-- What holds in every state a machine can reach: memory in canonical form, PC and return addresses within the bounds of R27, the
stack within a finite STACK_DEPTH (R29), parameters in their domains (R8). -/
structure MachineInv (s : State) : Prop where
  memWf : Memory.wf s.mem
  pcBound : s.pc.toNat ≤ 0x10FE
  returnBound : ∀ w ∈ s.stack, w.toNat ≤ 0x1000
  depth : ∀ d, s.params.stackDepth = .limit d → s.stack.length ≤ d
  paramsWf : s.params.wf

/-! ## Runs -/

/-- An infinite sequence of states, each one step after the one before. -/
def IsRun (r : Nat → State) : Prop := ∀ n, step (r n) = .next (r (n + 1))

/-- The assumption of R255 on an infinite Running execution: each of the three clocks ticks infinitely often. It is a hypothesis
for claims; the step itself admits every interleaving (log entry 11). -/
def WeaklyFair (r : Nat → State) : Prop := ∀ t : Tick, ∀ n, ∃ m, n ≤ m ∧ (r m).nextEvent = .tick t

end Sys2Proof
end

