-- ==== Sys2Proof/Certificates/Slice0/Obligations.lean ====
section
/-! DEFINITION. The statements for the provers. In a statement about `exec`, the state is the one a handler starts in: PC already
holds A + 2, where A is the address of the instruction (00_scope.md R12, 40_cycle.md R106); "PC unchanged" therefore means that
the cycle ends with PC = A + 2. `Encodes` clauses state the rule's own Encoding line; the numeric patterns are the spec's
decision D1 (log entry 14). -/

open Sys2Proof Sys2Proof.Machine Sys2Proof.Config

/-! ## Encoding and decode (30_encoding.md) -/

/-- Decoding the word of any instruction gives that instruction back, every operand at every value, whatever LOOSE_DECODE is. The
patterns are the spec's decision D1 (log entry 14). -/
def Obligations.DecodeEncodeRoundTrip : Prop := ∀ (loose : Bool) (i : Instr), decode loose (encode i) = some i

/-- Under strict decode every supported word is the word of the instruction it decodes to: no bit is dropped and no two words share
a meaning (R78, R79; the default of D2). -/
def Obligations.StrictDecodeLosesNoBit : Prop := ∀ (w : Word) (i : Instr), decode false w = some i → encode i = w

/-- The strict decoder is the opcode table: a word decodes to a kind exactly when it lies in that kind's row; so no word lies in the
rows of two kinds. -/
def Obligations.DecoderIsTheOpcodeTable : Prop :=
  (∀ (w : Word) (i : Instr), decode false w = some i → inRow i.row w = true) ∧
  (∀ (w : Word) (i : Instr), inRow i.row w = true → ∃ j, decode false w = some j ∧ j.row = i.row) ∧
  (∀ (w : Word) (i j : Instr), inRow i.row w = true → inRow j.row w = true → i.row = j.row)

/-- The Unsupported space under strict decode, group by group (the sets of 30_encoding.md section 5). -/
def Obligations.UnsupportedSpaceStrict : Prop :=
  ∀ w : Word, decode false w = none ↔
    (field w 15 12 = 0x0 ∧ w ≠ 0x00E0 ∧ w ≠ 0x00EE) ∨
    (field w 15 12 = 0x5 ∧ field w 3 0 ≠ 0) ∨
    (field w 15 12 = 0x8 ∧ field w 3 0 ∈ [0x8, 0x9, 0xA, 0xB, 0xC, 0xD, 0xF]) ∨
    (field w 15 12 = 0x9 ∧ field w 3 0 ≠ 0) ∨
    (field w 15 12 = 0xE ∧ field w 7 0 ∉ [0x9E, 0xA1]) ∨
    (field w 15 12 = 0xF ∧ field w 7 0 ∉ [0x07, 0x0A, 0x15, 0x18, 0x1E, 0x29, 0x33, 0x55, 0x65])

/-- LOOSE_DECODE = true keeps every strict meaning and adds exactly the words 0x0nE0, 0x0nEE, 5xyn and 9xyn (R78, R79; decision D2). -/
def Obligations.LooseDecodeAddsIgnoredBits : Prop :=
  (∀ (w : Word) (i : Instr), decode false w = some i → decode true w = some i) ∧
  (∀ w : Word, decode false w = none → field w 15 12 = 0x0 → field w 7 0 = 0xE0 → decode true w = some .cls) ∧
  (∀ w : Word, decode false w = none → field w 15 12 = 0x0 → field w 7 0 = 0xEE → decode true w = some .ret) ∧
  (∀ w : Word, field w 15 12 = 0x5 → decode true w = some (.ser (fieldX w) (fieldY w))) ∧
  (∀ w : Word, field w 15 12 = 0x9 → decode true w = some (.sner (fieldX w) (fieldY w))) ∧
  (∀ w : Word, decode false w = none → ¬(field w 15 12 = 0x0 ∧ (field w 7 0 = 0xE0 ∨ field w 7 0 = 0xEE)) →
    field w 15 12 ≠ 0x5 → field w 15 12 ≠ 0x9 → decode true w = none)

/-- Words written out from the encoding tables decode to the instructions they stand for, one or more of every family. -/
def Obligations.SampleWordsDecode : Prop :=
  decode false 0x00E0 = some .cls ∧ decode false 0x00EE = some .ret ∧ decode false 0x120A = some (.jmp 0x20A) ∧
  decode false 0x3312 = some (.se 3 0x12) ∧ decode false 0x8544 = some (.addr 5 4) ∧ decode false 0x8237 = some (.subr 2 3) ∧
  decode false 0xA300 = some (.lda 0x300) ∧ decode false 0xF155 = some (.strd 1) ∧ decode false 0xD125 = some (.draw 1 2 5) ∧
  decode false 0xEFA1 = some (.sknp 15) ∧ decode false 0xF30A = some (.ldkp 3) ∧ decode false 0x0123 = none

/-! ## Control transfer (41_control.md) -/

/-- RET: pops the return address into PC; on an empty stack STACK_UNDERFLOW, PC left at A + 2 and nothing else changed. The value
popped is at most 0x1000 in every state that meets the invariant, and a fetch at 0x1000 is fatal (R130). -/
def Obligations.RetPopsOrUnderflows : Prop :=
  Encodes .ret 0x00EE ∧
  (∀ (s : State) (w : Word) (rest : List Word), s.stack = w :: rest →
    ∃ t, exec .ret s = .next t ∧ t.pc = w ∧ t.stack = rest ∧ Unchanged [.pc, .stack] s t ∧
      (MachineInv s → w.toNat ≤ 0x1000)) ∧
  (∀ s : State, s.stack = [] →
    ∃ t, exec .ret s = .next t ∧ HaltedOn (.stackUnderflow (s.pc - 2)) t ∧ Unchanged [.engine] s t) ∧
  (∀ s : State, Live s → s.nextEvent = .tick .cycle → s.pc = 0x1000 → FetchHaltsAt 0x1000 s)

/-- JMP nnn: PC becomes nnn, for every nnn; a fetch at 0xFFF is fatal (R131). -/
def Obligations.JmpSetsPc : Prop :=
  (∀ (nnn : Addr) (s : State), Encodes (.jmp nnn) (0x1000 + nnn.toNat) ∧
    ∃ t, exec (.jmp nnn) s = .next t ∧ t.pc.toNat = nnn.toNat ∧ Unchanged [.pc] s t) ∧
  (∀ s : State, Live s → s.nextEvent = .tick .cycle → s.pc = 0xFFF → FetchHaltsAt 0x1000 s)

/-- CALL nnn: pushes A + 2 and jumps; with a finite STACK_DEPTH and that many entries, STACK_OVERFLOW and nothing else changes (R132;
the overflow is the spec's decision D9). -/
def Obligations.CallPushesOrOverflows : Prop :=
  ∀ (nnn : Addr) (s : State), Encodes (.call nnn) (0x2000 + nnn.toNat) ∧
    (s.params.stackDepth ≠ .limit s.stack.length →
      ∃ t, exec (.call nnn) s = .next t ∧ t.pc.toNat = nnn.toNat ∧ t.stack = s.pc :: s.stack ∧ Unchanged [.pc, .stack] s t) ∧
    (s.params.stackDepth = .limit s.stack.length →
      ∃ t, exec (.call nnn) s = .next t ∧ HaltedOn (.stackOverflow (s.pc - 2)) t ∧ Unchanged [.engine] s t)

/-- SE Vx, kk skips one instruction exactly when V[x] = kk, and SNE Vx, kk exactly when they differ (R133, R134). -/
def Obligations.ImmediateSkips : Prop :=
  ∀ (x : Reg) (kk : Byte) (s : State),
    Encodes (.se x kk) (0x3000 + 256 * x.val + kk.toNat) ∧ Encodes (.sne x kk) (0x4000 + 256 * x.val + kk.toNat) ∧
    (∃ t, exec (.se x kk) s = .next t ∧ t.pc = (if s.V x = kk then s.pc + 2 else s.pc) ∧ Unchanged [.pc] s t) ∧
    (∃ t, exec (.sne x kk) s = .next t ∧ t.pc = (if s.V x ≠ kk then s.pc + 2 else s.pc) ∧ Unchanged [.pc] s t)

/-- SER Vx, Vy skips one instruction exactly when the registers are equal, and SNER Vx, Vy exactly when they differ (R135, R136). -/
def Obligations.RegisterSkips : Prop :=
  ∀ (x y : Reg) (s : State),
    Encodes (.ser x y) (0x5000 + 256 * x.val + 16 * y.val) ∧ Encodes (.sner x y) (0x9000 + 256 * x.val + 16 * y.val) ∧
    (∃ t, exec (.ser x y) s = .next t ∧ t.pc = (if s.V x = s.V y then s.pc + 2 else s.pc) ∧ Unchanged [.pc] s t) ∧
    (∃ t, exec (.sner x y) s = .next t ∧ t.pc = (if s.V x ≠ s.V y then s.pc + 2 else s.pc) ∧ Unchanged [.pc] s t)

/-- JMPO nnn: PC becomes V[0] + nnn, not masked to 12 bits (41_control.md section 2; the missing mask is the spec's decision D14). -/
def Obligations.JmpoAddsV0 : Prop :=
  ∀ (nnn : Addr) (s : State), Encodes (.jmpo nnn) (0xB000 + nnn.toNat) ∧
    ∃ t, exec (.jmpo nnn) s = .next t ∧ t.pc.toNat = (s.V 0).toNat + nnn.toNat ∧ Unchanged [.pc] s t

/-- A CALL that pushes, and later a RET on the stack it left, bring PC back to the instruction after the CALL and the stack back to
what it was. -/
def Obligations.RetAfterCallReturns : Prop :=
  ∀ (nnn : Addr) (s t u : State), s.params.stackDepth ≠ .limit s.stack.length → exec (.call nnn) s = .next t →
    u.stack = t.stack → ∃ w, exec .ret u = .next w ∧ w.pc = s.pc ∧ w.stack = s.stack

/-! ## Register and arithmetic instructions (42_alu.md) -/

/-- SET Vx, kk: V[x] becomes kk; SETR Vx, Vy: V[x] becomes V[y] (R150, R151). -/
def Obligations.SetAndSetrMove : Prop :=
  ∀ (x y : Reg) (kk : Byte) (s : State),
    Encodes (.set x kk) (0x6000 + 256 * x.val + kk.toNat) ∧ Encodes (.setr x y) (0x8000 + 256 * x.val + 16 * y.val) ∧
    (∃ t, exec (.set x kk) s = .next t ∧ t.V x = kk ∧ Unchanged [.v x] s t) ∧
    (∃ t, exec (.setr x y) s = .next t ∧ t.V x = s.V y ∧ Unchanged [.v x] s t)

/-- ADD Vx, kk: V[x] becomes the sum mod 256 and no flag is written (R152). -/
def Obligations.AddWrapsWithoutFlag : Prop :=
  ∀ (x : Reg) (kk : Byte) (s : State), Encodes (.add x kk) (0x7000 + 256 * x.val + kk.toNat) ∧
    ∃ t, exec (.add x kk) s = .next t ∧ (t.V x).toNat = ((s.V x).toNat + kk.toNat) % 256 ∧ Unchanged [.v x] s t

/-- ADDR Vx, Vy: V[x] becomes the sum mod 256, then VF the carry; with x = 0xF VF ends as the carry (R153). -/
def Obligations.AddrSetsCarry : Prop :=
  ∀ (x y : Reg) (s : State), Encodes (.addr x y) (0x8004 + 256 * x.val + 16 * y.val) ∧
    ∃ t, exec (.addr x y) s = .next t ∧
      t.V VF = (if (s.V x).toNat + (s.V y).toNat > 255 then 1 else 0) ∧
      (x ≠ VF → (t.V x).toNat = ((s.V x).toNat + (s.V y).toNat) % 256) ∧ Unchanged [.v x, .v VF] s t

/-- SUB Vx, Vy: V[x] becomes V[x] - V[y] mod 256, then VF = 1 when there is no borrow (R154). -/
def Obligations.SubSetsNoBorrow : Prop :=
  ∀ (x y : Reg) (s : State), Encodes (.sub x y) (0x8005 + 256 * x.val + 16 * y.val) ∧
    ∃ t, exec (.sub x y) s = .next t ∧
      t.V VF = (if (s.V x).toNat ≥ (s.V y).toNat then 1 else 0) ∧
      (x ≠ VF → ((t.V x).toNat : Int) = (((s.V x).toNat : Int) - (s.V y).toNat) % 256) ∧ Unchanged [.v x, .v VF] s t

/-- SUBR Vx, Vy: V[x] becomes V[y] - V[x] mod 256, then VF = 1 when there is no borrow (R155). -/
def Obligations.SubrSetsNoBorrow : Prop :=
  ∀ (x y : Reg) (s : State), Encodes (.subr x y) (0x8007 + 256 * x.val + 16 * y.val) ∧
    ∃ t, exec (.subr x y) s = .next t ∧
      t.V VF = (if (s.V y).toNat ≥ (s.V x).toNat then 1 else 0) ∧
      (x ≠ VF → ((t.V x).toNat : Int) = (((s.V y).toNat : Int) - (s.V x).toNat) % 256) ∧ Unchanged [.v x, .v VF] s t

/-- OR, AND and XOR: bit k of V[x] becomes the operation of bits k of V[x] and V[y], and VF is untouched unless x = 0xF (42_alu.md
section 4; leaving VF alone is the spec's decision D21). -/
def Obligations.BitwiseOpsLeaveVf : Prop :=
  ∀ (x y : Reg) (s : State),
    Encodes (.or x y) (0x8001 + 256 * x.val + 16 * y.val) ∧ Encodes (.and x y) (0x8002 + 256 * x.val + 16 * y.val) ∧
    Encodes (.xor x y) (0x8003 + 256 * x.val + 16 * y.val) ∧
    (∃ t, exec (.or x y) s = .next t ∧ Unchanged [.v x] s t ∧
      ∀ k, (t.V x).getLsbD k = ((s.V x).getLsbD k || (s.V y).getLsbD k)) ∧
    (∃ t, exec (.and x y) s = .next t ∧ Unchanged [.v x] s t ∧
      ∀ k, (t.V x).getLsbD k = ((s.V x).getLsbD k && (s.V y).getLsbD k)) ∧
    (∃ t, exec (.xor x y) s = .next t ∧ Unchanged [.v x] s t ∧
      ∀ k, (t.V x).getLsbD k = ((s.V x).getLsbD k ^^ (s.V y).getLsbD k))

/-- SHR Vx and SHL Vx, x not 0xF: V[x] is halved, or doubled mod 256, and VF is the bit shifted out, whatever the Y field is
(42_alu.md section 5; ignoring Y is the spec's decision D21). -/
def Obligations.ShiftsSetVfToBitShiftedOut : Prop :=
  ∀ (x y : Reg) (s : State), x ≠ VF →
    Encodes (.shr x y) (0x8006 + 256 * x.val + 16 * y.val) ∧ Encodes (.shl x y) (0x800E + 256 * x.val + 16 * y.val) ∧
    (∃ t, exec (.shr x y) s = .next t ∧ (t.V x).toNat = (s.V x).toNat / 2 ∧ (t.V VF).toNat = (s.V x).toNat % 2 ∧
      Unchanged [.v x, .v VF] s t) ∧
    (∃ t, exec (.shl x y) s = .next t ∧ (t.V x).toNat = (s.V x).toNat * 2 % 256 ∧ (t.V VF).toNat = (s.V x).toNat / 128 ∧
      Unchanged [.v x, .v VF] s t)

/-- SHR VF and SHL VF for each of the three values of SHIFT_VF_ALIAS (42_alu.md section 5; decision D20, log entry 7). -/
def Obligations.ShiftOfVfByParameter : Prop :=
  ∀ (y : Reg) (s : State), Encodes (.shr VF y) (0x8F06 + 16 * y.val) ∧ Encodes (.shl VF y) (0x8F0E + 16 * y.val) ∧
    (∃ t, exec (.shr VF y) s = .next t ∧ Unchanged [.v VF] s t ∧
      (t.V VF).toNat = (match s.params.shiftVf with
        | .resultLast => (s.V VF).toNat / 2
        | .reread => 0
        | .flagLast => (s.V VF).toNat % 2)) ∧
    (∃ t, exec (.shl VF y) s = .next t ∧ Unchanged [.v VF] s t ∧
      (t.V VF).toNat = (match s.params.shiftVf with
        | .resultLast => (s.V VF).toNat * 2 % 256
        | .reread => if (s.V VF).toNat ≥ 128 then 2 else 0
        | .flagLast => if (s.V VF).toNat ≥ 128 then 1 else 0))

/-- RAND Vx, kk: V[x] becomes the byte drawn masked by kk, with exactly one draw, for every byte that can be drawn; a byte injected
at the port is the one drawn (42_alu.md section 6; drawing under no law is the spec's decision D25, log entry 10). -/
def Obligations.RandMasksOneDraw : Prop :=
  ∀ (x : Reg) (kk : Byte) (s : State), Encodes (.rand x kk) (0xC000 + 256 * x.val + kk.toNat) ∧
    ∃ t, exec (.rand x kk) s = .next t ∧ (∀ k, (t.V x).getLsbD k = (s.randomByte.getLsbD k && kk.getLsbD k)) ∧
      (∀ r rest, s.random.queued = r :: rest → s.randomByte = r ∧ t.random.queued = rest) ∧
      t.random.drawn = s.random.drawn + 1 ∧ Unchanged [.v x, .random] s t

/-! ## Address register and memory instructions (43_index_memory.md) -/

/-- LDA nnn: I becomes nnn (R180). -/
def Obligations.LdaLoadsAddress : Prop :=
  ∀ (nnn : Addr) (s : State), Encodes (.lda nnn) (0xA000 + nnn.toNat) ∧
    ∃ t, exec (.lda nnn) s = .next t ∧ t.i.toNat = nnn.toNat ∧ Unchanged [.i] s t

/-- ADDA Vx: I becomes I + V[x] mod 65536 with no flag; LDSA Vx: I becomes 5 V[x], the whole register (43_index_memory.md section 2;
the width of the sum and the missing mask are the spec's decisions D13 and D35). -/
def Obligations.AddaWrapsAndLdsaPointsAtGlyph : Prop :=
  ∀ (x : Reg) (s : State),
    Encodes (.adda x) (0xF01E + 256 * x.val) ∧ Encodes (.ldsa x) (0xF029 + 256 * x.val) ∧
    (∃ t, exec (.adda x) s = .next t ∧ t.i.toNat = (s.i.toNat + (s.V x).toNat) % 65536 ∧ Unchanged [.i] s t) ∧
    (∃ t, exec (.ldsa x) s = .next t ∧ t.i.toNat = (s.V x).toNat * 5 ∧ Unchanged [.i] s t)

/-- STDR Vx: the hundreds, tens and ones digits of V[x] go to I, I + 1 and I + 2 and no other byte changes; past the end of memory
it halts at the first failing address with each byte in bounds old or new (43_index_memory.md section 3; the digit order is the
spec's decision D16, the bytes left by a fault its decision D26). -/
def Obligations.StdrStoresDecimalDigits : Prop :=
  ∀ (x : Reg) (s : State), Memory.wf s.mem → Encodes (.stdr x) (0xF033 + 256 * x.val) ∧
    (DataInBounds s 3 → ∃ t, exec (.stdr x) s = .next t ∧
      (Memory.get t.mem (s.ea 0)).toNat = (s.V x).toNat / 100 ∧
      (Memory.get t.mem (s.ea 1)).toNat = (s.V x).toNat / 10 % 10 ∧
      (Memory.get t.mem (s.ea 2)).toNat = (s.V x).toNat % 10 ∧
      (∀ a, (∀ k, k < 3 → a ≠ s.ea k) → Memory.get t.mem a = Memory.get s.mem a) ∧ Unchanged [.mem] s t) ∧
    (¬ DataInBounds s 3 → ∃ t, exec (.stdr x) s = .next t ∧
      HaltedOn (.memOob .write (max s.i.toNat 4096) (s.pc - 2)) t ∧
      (∀ k, k < 3 → s.ea k < 4096 → Memory.get t.mem (s.ea k) = Memory.get s.mem (s.ea k) ∨
        (Memory.get t.mem (s.ea k)).toNat = [(s.V x).toNat / 100, (s.V x).toNat / 10 % 10, (s.V x).toNat % 10].getD k 0) ∧
      (∀ a, (∀ k, k < 3 → s.ea k < 4096 → a ≠ s.ea k) → Memory.get t.mem a = Memory.get s.mem a) ∧
      Unchanged [.mem, .engine, .torn] s t)

/-- LDRD Vx: V[0] to V[x] take the bytes at I to I + x; past the end of memory it halts at the first failing address with each of
V[0] to V[x] holding its old value or its byte (43_index_memory.md section 3; the registers are unspecified after the halt: old or
new is the spec's decision D26, log entry 12, and that a register whose byte is out of bounds keeps its value is DEDUCED, log
entry 13). -/
def Obligations.LdrdLoadsRegisters : Prop :=
  ∀ (x : Reg) (s : State), Encodes (.ldrd x) (0xF065 + 256 * x.val) ∧
    (DataInBounds s (x.val + 1) → ∃ t, exec (.ldrd x) s = .next t ∧
      (∀ r, r ≤ x → t.V r = Memory.get s.mem (s.ea r.val)) ∧ Unchanged (partsUpTo x) s t) ∧
    (¬ DataInBounds s (x.val + 1) → ∃ t, exec (.ldrd x) s = .next t ∧
      HaltedOn (.memOob .read (max s.i.toNat 4096) (s.pc - 2)) t ∧
      (∀ r, r ≤ x → t.V r = s.V r ∨ (s.ea r.val < 4096 ∧ t.V r = Memory.get s.mem (s.ea r.val))) ∧
      Unchanged ([.engine, .torn] ++ partsUpTo x) s t)

/-- STRD Vx: V[0] to V[x] go to I to I + x and no other byte changes; past the end of memory it halts at the first failing address
with each byte in bounds old or new (43_index_memory.md section 3; the bytes the halt leaves are the spec's decision D26, log
entry 12). -/
def Obligations.StrdStoresRegisters : Prop :=
  ∀ (x : Reg) (s : State), Memory.wf s.mem → Encodes (.strd x) (0xF055 + 256 * x.val) ∧
    (DataInBounds s (x.val + 1) → ∃ t, exec (.strd x) s = .next t ∧
      (∀ r, r ≤ x → Memory.get t.mem (s.ea r.val) = s.V r) ∧
      (∀ a, (∀ r, r ≤ x → a ≠ s.ea r.val) → Memory.get t.mem a = Memory.get s.mem a) ∧ Unchanged [.mem] s t) ∧
    (¬ DataInBounds s (x.val + 1) → ∃ t, exec (.strd x) s = .next t ∧
      HaltedOn (.memOob .write (max s.i.toNat 4096) (s.pc - 2)) t ∧
      (∀ r, r ≤ x → s.ea r.val < 4096 → Memory.get t.mem (s.ea r.val) = Memory.get s.mem (s.ea r.val) ∨
        Memory.get t.mem (s.ea r.val) = s.V r) ∧
      (∀ a, (∀ r, r ≤ x → s.ea r.val < 4096 → a ≠ s.ea r.val) → Memory.get t.mem a = Memory.get s.mem a) ∧
      Unchanged [.mem, .engine, .torn] s t)

/-- An LDRD in any later state with the memory and I that a STRD left gives back the registers the STRD stored. -/
def Obligations.LdrdReadsBackStrd : Prop :=
  ∀ (x : Reg) (s t u : State), Memory.wf s.mem → DataInBounds s (x.val + 1) → exec (.strd x) s = .next t →
    u.mem = t.mem → u.i = t.i → ∃ w, exec (.ldrd x) u = .next w ∧ ∀ r, r ≤ x → w.V r = s.V r

/-- Self-modifying code works: a fetch at the address where a STRD stored V[0] and V[1] reads them as its opcode, V[0] in the high
byte (20_memory.md sections 2 and 8). -/
def Obligations.FetchSeesEarlierStore : Prop :=
  ∀ (x : Reg) (s t u : State), 1 ≤ x → Memory.wf s.mem → DataInBounds s (x.val + 1) → exec (.strd x) s = .next t →
    u.mem = t.mem → u.pc = t.i → (u.opcodeAtPc).toNat = (s.V 0).toNat * 256 + (s.V 1).toNat

/-! ## Display instructions (44_display.md) -/

/-- CLS: every pixel becomes 0 and nothing else changes (R200). -/
def Obligations.ClsClearsEveryPixel : Prop :=
  Encodes .cls 0x00E0 ∧
  ∀ s : State, ∃ t, exec .cls s = .next t ∧ (∀ x y, Display.get t.display x y = false) ∧ Unchanged [.display] s t

/-- DRAW Vx, Vy, n with its row bytes in memory: every pixel of the grid becomes itself XOR the sprite, the start position wrapped
and the sprite clipped, and VF = 1 exactly when a pixel goes from 1 to 0 (44_display.md; bit order, clipped rows and the moment
VF is cleared are the spec's decisions D17 to D19). -/
def Obligations.DrawXorsSpriteAndSetsCollision : Prop :=
  ∀ (x y : Reg) (n : Rows) (s : State), Encodes (.draw x y n) (0xD000 + 256 * x.val + 16 * y.val + n.val) ∧
    (DataInBounds s n.val → ∃ t, exec (.draw x y n) s = .next t ∧
      (∀ px py, Display.get t.display px py = (Display.get s.display px py ^^ spritePixel s x y n.val px py)) ∧
      (Collides s x y n.val → t.V VF = 1) ∧ (¬ Collides s x y n.val → t.V VF = 0) ∧ Unchanged [.display, .v VF] s t)

/-- DRAW with a row byte out of memory halts at the first failing address; each pixel holds its old value or the one the rows in
bounds give it, and VF its old value or one the instruction writes on the way (R201, R203; what is left open is the spec's
decision D26, log entries 12 and 13). -/
def Obligations.DrawOutOfMemoryHalts : Prop :=
  ∀ (x y : Reg) (n : Rows) (s : State), ¬ DataInBounds s n.val → ∃ t, exec (.draw x y n) s = .next t ∧
    HaltedOn (.memOob .read (max s.i.toNat 4096) (s.pc - 2)) t ∧
    (∀ px py, Display.get t.display px py = Display.get s.display px py ∨
      Display.get t.display px py
        = (Display.get s.display px py ^^ spritePixel s x y (4096 - s.i.toNat) px py)) ∧
    (t.V VF = s.V VF ∨ t.V VF = 0 ∨ (t.V VF = 1 ∧ Collides s x y (4096 - s.i.toNat))) ∧
    Unchanged [.display, .v VF, .engine, .torn] s t

/-- Drawing the same sprite a second time at the same place restores every pixel, and sets VF = 1 when the sprite has a visible 1
over a pixel that was 0 before the first draw (the source's collision property, 95_test_vectors.md S9). With x or y = 0xF the
second draw starts where the VF of the first says, so it is not at the same place. -/
def Obligations.DrawTwiceRestoresDisplay : Prop :=
  ∀ (x y : Reg) (n : Rows) (s t : State), x ≠ VF → y ≠ VF → DataInBounds s n.val → exec (.draw x y n) s = .next t →
    ∃ u, exec (.draw x y n) t = .next u ∧
      (∀ px py, Display.get u.display px py = Display.get s.display px py) ∧
      ((∃ px py, spritePixel s x y n.val px py = true ∧ Display.get s.display px py = false) → u.V VF = 1)

/-! ## Key and timer instructions (45_keys_timers.md) -/

/-- SKP and SKNP with V[x] a key: one query, and a skip when the key is held, or is not held (45_keys_timers.md section 1; answers
under no law are the spec's decision D23, log entry 10). A key state injected at the port is the one read. -/
def Obligations.KeyTestsSkipOnAnswer : Prop :=
  ∀ (x : Reg) (k : Key) (s : State), (s.V x).toNat = k.val →
    Encodes (.skp x) (0xE09E + 256 * x.val) ∧ Encodes (.sknp x) (0xE0A1 + 256 * x.val) ∧
    (∀ held rest, s.keypad.queued = held :: rest → s.keyPressed k = held[k.val]) ∧
    (∃ t, exec (.skp x) s = .next t ∧ t.pc = (if s.keyPressed k = true then s.pc + 2 else s.pc) ∧
      t.keypad = { queued := s.keypad.queued.tail, drawn := s.keypad.drawn + 1 } ∧ Unchanged [.pc, .keypad] s t) ∧
    (∃ t, exec (.sknp x) s = .next t ∧ t.pc = (if s.keyPressed k = false then s.pc + 2 else s.pc) ∧
      t.keypad = { queued := s.keypad.queued.tail, drawn := s.keypad.drawn + 1 } ∧ Unchanged [.pc, .keypad] s t)

/-- SKP and SKNP with V[x] above 15 raise KEY_RANGE before any query, and nothing else changes (the spec's decision D22). -/
def Obligations.KeyTestsOutOfRangeHalt : Prop :=
  ∀ (x : Reg) (s : State), 15 < (s.V x).toNat →
    (∃ t, exec (.skp x) s = .next t ∧ HaltedOn (.keyRange .skp (s.pc - 2) (s.V x)) t ∧ Unchanged [.engine] s t) ∧
    (∃ t, exec (.sknp x) s = .next t ∧ HaltedOn (.keyRange .sknp (s.pc - 2) (s.V x)) t ∧ Unchanged [.engine] s t)

/-- LDDT Vx reads DT and STDT Vx writes it (45_keys_timers.md section 2; which name goes which way is the spec's decision D4). -/
def Obligations.DelayTimerReadAndWritten : Prop :=
  ∀ (x : Reg) (s : State), Encodes (.lddt x) (0xF007 + 256 * x.val) ∧ Encodes (.stdt x) (0xF015 + 256 * x.val) ∧
    (∃ t, exec (.lddt x) s = .next t ∧ t.V x = s.dt ∧ Unchanged [.v x] s t) ∧
    (∃ t, exec (.stdt x) s = .next t ∧ t.dt = s.V x ∧ Unchanged [.dt] s t)

/-- STST Vx: ST becomes V[x]; no instruction reads ST back: every other handler commutes with replacing ST, and what STST leaves
does not depend on it (R224). -/
def Obligations.StstWritesSoundTimerUnread : Prop :=
  (∀ (x : Reg) (s : State), Encodes (.stst x) (0xF018 + 256 * x.val) ∧
    ∃ t, exec (.stst x) s = .next t ∧ t.st = s.V x ∧ Unchanged [.st] s t) ∧
  (∀ (i : Instr) (s : State) (b : Byte), (∀ x, i ≠ .stst x) → exec i (s.setSt b) = mapNext (fun t => t.setSt b) (exec i s)) ∧
  (∀ (x : Reg) (s : State) (b : Byte), exec (.stst x) (s.setSt b) = exec (.stst x) s)

/-- LDKP Vx: one poll; with no key PC goes back by 2 so that the same instruction runs again, with a key it goes to V[x]
(45_keys_timers.md section 3; the answers are draws by the spec's decision D24, log entry 10). -/
def Obligations.LdkpPollsAndRetries : Prop :=
  ∀ (x : Reg) (s : State), Encodes (.ldkp x) (0xF00A + 256 * x.val) ∧
    (∀ answer rest, s.polls.queued = answer :: rest → s.polledKey = answer) ∧
    (s.polledKey = none → ∃ t, exec (.ldkp x) s = .next t ∧ t.pc = s.pc - 2 ∧
      t.polls = { queued := s.polls.queued.tail, drawn := s.polls.drawn + 1 } ∧ Unchanged [.pc, .polls] s t) ∧
    (∀ k, s.polledKey = some k → ∃ t, exec (.ldkp x) s = .next t ∧ (t.V x).toNat = k.val ∧
      t.polls = { queued := s.polls.queued.tail, drawn := s.polls.drawn + 1 } ∧ Unchanged [.v x, .polls] s t)

/-! ## The cycle and the engine (40_cycle.md, 60_exceptions.md) -/

/-- A step whose turn is an execution cycle runs exec of the instruction its two bytes decode to, in the state with the turn taken,
the opcode kept (DEDUCED, log entry 16) and PC at A + 2, and then ends the cycle; until the handler runs nothing else has changed. -/
def Obligations.StepRunsDecodedInstruction : Prop :=
  ∀ (s : State) (i : Instr), Live s → s.nextEvent = .tick .cycle → FetchInBounds s →
    decode s.params.looseDecode (joinBytes (Memory.get s.mem s.pc.toNat) (Memory.get s.mem (s.pc.toNat + 1))) = some i →
    step s = completeCycle s.opcodeAtPc (exec i s.afterEvent.advance) ∧
      s.afterEvent.advance.pc = s.pc + 2 ∧ s.afterEvent.advance.opcode = some s.opcodeAtPc ∧
      (s.opcodeAtPc).toNat = (Memory.get s.mem s.pc.toNat).toNat * 256 + (Memory.get s.mem (s.pc.toNat + 1)).toNat ∧
      Unchanged [.pc, .opcode, .schedule] s s.afterEvent.advance

/-- A placed word is fetched and run by the very next step from reset, for every instruction (log entry 1). -/
def Obligations.PlacedInstructionRunsNext : Prop :=
  ∀ i : Instr, step (State.reset.withFetchWord 16 (encode i).toNat)
    = completeCycle (encode i) (exec i (State.reset.withFetchWord 16 (encode i).toNat).afterEvent.advance)

/-- A fetch with PC or PC + 1 outside memory raises MEM_OOB for the first failing address; PC stays A and nothing else changes. Any
other fetch reads the two bytes at PC as the cycle's opcode, the first in the high byte (40_cycle.md section 2). That the opcode
can still be read after the cycle is DEDUCED, log entry 16. -/
def Obligations.FetchReadsBigEndianOrHalts : Prop :=
  (∀ s : State, Live s → s.nextEvent = .tick .cycle → 4096 ≤ s.pc.toNat ∨ 4096 ≤ s.pc.toNat + 1 →
    ∃ t, step s = .next t ∧
      HaltedOn (.memOob .fetch (if 4096 ≤ s.pc.toNat then s.pc.toNat else s.pc.toNat + 1) s.pc) t ∧
      Unchanged [.engine, .schedule] s t) ∧
  (∀ s t : State, Live s → s.nextEvent = .tick .cycle → FetchInBounds s → step s = .next t →
    ∃ w, t.opcode = some w ∧
      w.toNat = (Memory.get s.mem s.pc.toNat).toNat * 256 + (Memory.get s.mem (s.pc.toNat + 1)).toNat)

/-- An Unsupported word raises UNSUPPORTED with the opcode and A; PC is A + 2 and the handler part of the state is unchanged
(40_cycle.md section 2; that the opcode is kept is DEDUCED, log entry 16). -/
def Obligations.UnsupportedWordHalts : Prop :=
  ∀ s : State, Live s → s.nextEvent = .tick .cycle → FetchInBounds s →
    decode s.params.looseDecode s.opcodeAtPc = none →
    ∃ t, step s = .next t ∧ HaltedOn (.unsupported s.opcodeAtPc s.pc) t ∧ t.pc = s.pc + 2 ∧
      t.opcode = some s.opcodeAtPc ∧ Unchanged [.pc, .engine, .opcode, .schedule] s t

/-- A completed cycle builds the Cycle Context from the state after the instruction, calls every observer once with it, draws one
answer from each in registration order, and halts if any is true; nothing else changes (40_cycle.md section 2; the spec's decisions
D32 and D33; log entry 17). -/
def Obligations.CompletedCycleNotifiesObservers : Prop :=
  ∀ (s u : State) (i : Instr), Live s → s.nextEvent = .tick .cycle → FetchInBounds s →
    decode s.params.looseDecode s.opcodeAtPc = some i → exec i s.afterEvent.advance = .next u → Live u →
    ∃ t c, step s = .next t ∧ t.context = some c ∧
      c.mem = u.mem ∧ c.v = u.v ∧ c.i = u.i ∧ c.pc = u.pc ∧ c.dt = u.dt ∧ c.st = u.st ∧ c.opcode = s.opcodeAtPc ∧
      t.observers = s.observers.map (fun o => { calls := o.calls + 1, last := some c }) ∧
      t.halts = { queued := s.halts.queued.drop s.observers.length, drawn := s.halts.drawn + s.observers.length } ∧
      (SomeoneHalts s.halts s.observers.length → t.engine = .halted .observer) ∧
      (¬ SomeoneHalts s.halts s.observers.length → t.engine = s.engine) ∧
      Unchanged [.context, .observers, .halts, .engine] u t

/-- A cycle whose handler raises a fatal condition ends there: no context is built and no observer is called (the
spec's decision D26; log entry 9). -/
def Obligations.FatalCycleNotifiesNobody : Prop :=
  ∀ (s u : State) (i : Instr), Live s → s.nextEvent = .tick .cycle → FetchInBounds s →
    decode s.params.looseDecode s.opcodeAtPc = some i → exec i s.afterEvent.advance = .next u → u.engine.isHalted = true →
    step s = .next u ∧ u.context = s.context ∧ u.observers = s.observers ∧ u.halts = s.halts

/-- Halted is terminal: no step of a Halted machine gives a next state (R104). -/
def Obligations.HaltedIsTerminal : Prop := ∀ (s t : State), s.engine.isHalted = true → step s ≠ .next t

/-- The start operation moves a Ready machine to Running and changes nothing else; a Running machine refuses it (the spec's
decision D40; log entry 9). -/
def Obligations.StartMovesReadyToRunning : Prop :=
  (∀ s : State, s.engine = .ready → s.nextEvent = .start →
    ∃ t, step s = .next t ∧ t.engine = .running ∧ Unchanged [.engine, .schedule] s t) ∧
  (∀ s : State, s.engine = .running → s.nextEvent = .start → step s = .refused .startNotReady)

/-- The transitions of the engine: a step comes from a live machine and either starts a Ready one, or keeps the engine state, or is a
cycle that halts it. A manual cycle or tick never makes a Ready machine Running (the spec's decision D31). -/
def Obligations.EngineTransitions : Prop :=
  ∀ (s t : State), step s = .next t → Live s ∧
    ((s.nextEvent = .start ∧ s.engine = .ready ∧ t.engine = .running) ∨
     (s.nextEvent ≠ .start ∧ t.engine = s.engine) ∨
     (s.nextEvent = .tick .cycle ∧ ∃ why, t.engine = .halted why))

/-- A delay tick takes one from DT, with a floor at zero, and changes nothing else (R253). -/
def Obligations.DelayTickCountsDown : Prop :=
  ∀ s : State, Live s → s.nextEvent = .tick .delay →
    ∃ t, step s = .next t ∧ t.dt.toNat = (if s.dt.toNat > 0 then s.dt.toNat - 1 else 0) ∧ Unchanged [.dt, .schedule] s t

/-- A sound tick takes one from ST, with a floor at zero, and changes nothing else (R254). -/
def Obligations.SoundTickCountsDown : Prop :=
  ∀ s : State, Live s → s.nextEvent = .tick .sound →
    ∃ t, step s = .next t ∧ t.st.toNat = (if s.st.toNat > 0 then s.st.toNat - 1 else 0) ∧ Unchanged [.st, .schedule] s t

/-- A Ready or Running machine always has a next state, whatever its memory, registers, inputs and free values, unless a start is
requested of a Running one: no instruction and no data stops it without a state. -/
def Obligations.LiveMachineAlwaysSteps : Prop :=
  ∀ s : State, Live s → (s.engine = .running → s.schedule.queued.head? ≠ some .start) → ∃ t, step s = .next t

/-- Every step takes exactly one event off the schedule, a cycle that halts the machine too, and an event that is queued is the one
taken. The schedule is the model's own field (DESIGN CHOICE, log entry 11). -/
def Obligations.StepTakesOneEvent : Prop :=
  (∀ (s : State) (e : Event) (rest : List Event), s.schedule.queued = e :: rest → s.nextEvent = e) ∧
  (∀ s t : State, step s = .next t →
    t.schedule = { queued := s.schedule.queued.tail, drawn := s.schedule.drawn + 1 })

/-! ## Whole-machine rules -/

/-- Each handler writes only the parts its rule names: among them that only CALL and RET touch the stack, only LDA, ADDA and LDSA
write I, only STDR and STRD write memory, only CLS and DRAW the display, and only ADDR, SUB, SUBR, SHR, SHL and DRAW write VF
without naming it. -/
def Obligations.HandlersWriteOnlyTheirParts : Prop :=
  ∀ (i : Instr) (s t : State), exec i s = .next t → Unchanged i.mayWrite s t

/-- No handler can reach the schedule, the observers, their answers, the context or the rates: exec commutes with replacing them. -/
def Obligations.HandlersCannotReachTheHostSide : Prop :=
  ∀ (i : Instr) (s : State) (f : Feed Event) (l : List Observer) (h : Feed Bool) (c : Option CycleContext) (r : Rates),
    exec i ((((s.setSchedule f).setObservers l).setHalts h).setContext c |>.setParams { s.params with rates := r })
      = mapNext (fun t => (((t.setSchedule f).setObservers l).setHalts h).setContext c |>.setParams { s.params with rates := r })
          (exec i s)

/-- The rates are parameters that no rule reads: a step of a machine with other rates is the same step with those rates. -/
def Obligations.RatesDoNotInfluenceSteps : Prop :=
  ∀ (s : State) (r : Rates), step (s.setParams { s.params with rates := r })
    = mapNext (fun t => t.setParams { t.params with rates := r }) (step s)

/-- After a completed cycle of an instruction that transfers no control, PC is A + 2. -/
def Obligations.PcAdvancesByTwo : Prop :=
  ∀ (s t : State) (i : Instr), s.nextEvent = .tick .cycle → FetchInBounds s →
    decode s.params.looseDecode s.opcodeAtPc = some i → .pc ∉ i.mayWrite → step s = .next t → t.pc = s.pc + 2

/-! ## Invariants and construction -/

/-- The invariant holds at reset. -/
def Obligations.InvariantAtReset : Prop := MachineInv State.reset

/-- Every step keeps the invariant: memory canonical, PC at most 0x10FE, return addresses at most 0x1000, the stack within a finite
STACK_DEPTH, parameters in their domains. -/
def Obligations.StepKeepsInvariant : Prop := ∀ (s t : State), MachineInv s → step s = .next t → MachineInv t

/-- No step changes the machine's parameters or how many observers are registered. -/
def Obligations.StepKeepsParameters : Prop :=
  ∀ (s t : State), step s = .next t → t.params = s.params ∧ t.observers.length = s.observers.length

/-- What the spec says construction leaves, at State.reset: PC = 0x200, an empty stack (its decision D9), Ready, no opcode, the
defaults of STACK_DEPTH and LOOSE_DECODE (log entry 8), and the 80 font bytes at 0x000, glyph by glyph (the bytes are the spec's own
choice D36; PRESUMED, log entry 5). -/
def Obligations.ResetLeavesBootState : Prop :=
  State.reset.pc = 0x200 ∧ State.reset.stack = [] ∧ State.reset.engine = .ready ∧ State.reset.opcode = none ∧
  State.reset.params.stackDepth = .unbounded ∧ State.reset.params.looseDecode = false ∧
  (List.range 80).map (Memory.get State.reset.mem) =
    [0xF0, 0x90, 0x90, 0x90, 0xF0] ++ [0x20, 0x60, 0x20, 0x20, 0x70] ++ [0xF0, 0x10, 0xF0, 0x80, 0xF0] ++
    [0xF0, 0x10, 0xF0, 0x10, 0xF0] ++ [0x90, 0x90, 0xF0, 0x10, 0x10] ++ [0xF0, 0x80, 0xF0, 0x10, 0xF0] ++
    [0xF0, 0x80, 0xF0, 0x90, 0xF0] ++ [0xF0, 0x10, 0x20, 0x40, 0x40] ++ [0xF0, 0x90, 0xF0, 0x90, 0xF0] ++
    [0xF0, 0x90, 0xF0, 0x10, 0xF0] ++ [0xF0, 0x90, 0xF0, 0x90, 0x90] ++ [0xE0, 0x90, 0xE0, 0x90, 0xE0] ++
    [0xF0, 0x80, 0x80, 0x80, 0xF0] ++ [0xE0, 0x90, 0x90, 0x90, 0xE0] ++ [0xF0, 0x80, 0xF0, 0x80, 0xF0] ++
    [0xF0, 0x80, 0xF0, 0x80, 0x80]

/-- Construction: an image over 3584 bytes is refused; any other, with parameters in their domains, gives a Ready machine with the font
at 0x000, the image byte for byte at 0x200, every other byte at MEM_INIT, PC = 0x200, an empty stack, the given parameters,
register and display values, observers not called yet, no context, nothing injected at a port or the schedule, and the
invariant (70_reset_and_hazards.md section 1; the order of loading and the empty image are the spec's decision D39; what the model
keeps of observers is log entry 17, its ports and schedule log entries 10 and 11). -/
def Obligations.ConstructionLoadsImageVerbatim : Prop :=
  (∀ (c : Setup) (image : List Byte), 3584 < image.length → construct c image = .refused .imageTooLarge) ∧
  (∀ (c : Setup) (image : List Byte), c.wf → image.length ≤ 3584 → ∃ s, construct c image = .next s ∧ MachineInv s ∧
    s.pc = 0x200 ∧ s.stack = [] ∧ s.engine = .ready ∧ s.opcode = none ∧ s.v = c.initV ∧ s.i = c.initI ∧
    s.dt = c.initDt ∧ s.st = c.initSt ∧ s.display = c.displayInit ∧ s.params = c.params ∧
    s.observers.length = c.observers ∧ (∀ o ∈ s.observers, o.calls = 0 ∧ o.last = none) ∧ s.context = none ∧
    s.schedule.queued = [] ∧ s.keypad.queued = [] ∧ s.polls.queued = [] ∧ s.random.queued = [] ∧ s.halts.queued = [] ∧
    (∀ k, k < 80 → Memory.get s.mem k = c.font.getD k 0) ∧
    (∀ k, k < image.length → Memory.get s.mem (0x200 + k) = image.getD k 0) ∧
    (∀ a, 80 ≤ a → ¬(0x200 ≤ a ∧ a < 0x200 + image.length) → Memory.get s.mem a = Memory.get c.memInit a))
end

