-- ==== Sys2Proof/Laws/Cycle.lean ====
section
/-! SUPPORT. What polling the observers can do, said once. -/

namespace Sys2Proof.Machine

open Sys2Proof.Config

/-- The first answer of `n + 1` observers is the port's next one; the others' are those after it. -/
theorem haltAnswerAt_zero (f : Feed Bool) : haltAnswerAt f 0 = f.answer Config.haltAnswer := by
  unfold haltAnswerAt Feed.answer
  cases f.queued <;> rfl

theorem haltAnswerAt_succ (f : Feed Bool) (k : Nat) : haltAnswerAt f (k + 1) = haltAnswerAt f.advance k := by
  unfold haltAnswerAt Feed.advance
  have e : f.drawn + (k + 1) = f.drawn + 1 + k := by omega
  cases f.queued <;> simp [e]

/-- One answer is taken per observer (R110). -/
theorem pollHalts_feed : ∀ (n : Nat) (f : Feed Bool),
    (pollHalts n f).2 = { queued := f.queued.drop n, drawn := f.drawn + n }
  | 0, f => by simp [pollHalts]
  | n + 1, f => by
    rw [pollHalts, pollHalts_feed n f.advance]
    simp [Feed.advance]
    omega

/-- The engine is asked to halt exactly when one of the answers is true (R111). -/
theorem pollHalts_asked : ∀ (n : Nat) (f : Feed Bool), (pollHalts n f).1 = true ↔ SomeoneHalts f n
  | 0, f => by simp [pollHalts, SomeoneHalts]
  | n + 1, f => by
    rw [pollHalts, Bool.or_eq_true, pollHalts_asked n f.advance, ← haltAnswerAt_zero]
    constructor
    · rintro (h | ⟨k, hk, h⟩)
      · exact ⟨0, by omega, h⟩
      · exact ⟨k + 1, by omega, by rw [haltAnswerAt_succ, h]⟩
    · rintro ⟨k, hk, h⟩
      cases k with
      | zero => exact .inl h
      | succ k => exact .inr ⟨k, by omega, by rw [← haltAnswerAt_succ, h]⟩

end Sys2Proof.Machine
end

