-- ==== Sys2Proof/Laws/Decode.lean ====
section
/-! SUPPORT. What the field helpers read from the words the encoder writes, and the bytes of a word. -/

namespace Sys2Proof

/-- A word written as group and address, as a number. -/
theorem wordNNN_toNat {g : Nat} (hg : g < 16) (nnn : Addr) : (wordNNN g nnn).toNat = g * 4096 + nnn.toNat := by
  have := nnn.isLt
  simp only [wordNNN, BitVec.toNat_ofNat]
  omega

/-- A word written as group, register and byte, as a number. -/
theorem wordXKK_toNat {g : Nat} (hg : g < 16) (x : Reg) (kk : Byte) :
    (wordXKK g x kk).toNat = g * 4096 + x.val * 256 + kk.toNat := by
  have := kk.isLt
  have := x.isLt
  simp only [wordXKK, BitVec.toNat_ofNat]
  omega

/-- A word written as group, two registers and nibble, as a number. -/
theorem wordXYN_toNat {g : Nat} (hg : g < 16) (x y : Reg) (n : Fin 16) :
    (wordXYN g x y n).toNat = g * 4096 + x.val * 256 + y.val * 16 + n.val := by
  have := x.isLt
  have := y.isLt
  have := n.isLt
  simp only [wordXYN, BitVec.toNat_ofNat]
  omega

theorem wordNNN_inRow {g : Nat} (hg : g < 16) (nnn : Addr) : inRow [⟨15, 12, g⟩] (wordNNN g nnn) = true := by
  have := nnn.isLt
  simp [inRow, field, wordNNN_toNat hg]
  omega

theorem wordXKK_inRow {g : Nat} (hg : g < 16) (x : Reg) (kk : Byte) : inRow [⟨15, 12, g⟩] (wordXKK g x kk) = true := by
  have := kk.isLt
  have := x.isLt
  simp [inRow, field, wordXKK_toNat hg]
  omega

theorem wordXKK_inRow_low {g : Nat} (hg : g < 16) (x : Reg) (kk : Byte) :
    inRow [⟨15, 12, g⟩, ⟨7, 0, kk.toNat⟩] (wordXKK g x kk) = true := by
  have := kk.isLt
  have := x.isLt
  simp [inRow, field, wordXKK_toNat hg]
  omega

theorem wordXYN_inRow {g : Nat} (hg : g < 16) (x y : Reg) (n : Fin 16) : inRow [⟨15, 12, g⟩] (wordXYN g x y n) = true := by
  have := x.isLt
  have := y.isLt
  have := n.isLt
  simp [inRow, field, wordXYN_toNat hg]
  omega

theorem wordXYN_inRow_low {g : Nat} (hg : g < 16) (x y : Reg) (n : Fin 16) :
    inRow [⟨15, 12, g⟩, ⟨3, 0, n.val⟩] (wordXYN g x y n) = true := by
  have := x.isLt
  have := y.isLt
  have := n.isLt
  simp [inRow, field, wordXYN_toNat hg]
  omega

/-! ## What each field reads from each format (R72, R73) -/

section Fields

variable {g : Nat} (hg : g < 16) (x y : Reg) (n : Fin 16) (kk : Byte) (nnn : Addr)

include hg

theorem topNibble_wordNNN : topNibble (wordNNN g nnn) = g := by
  have := nnn.isLt
  simp [topNibble, field, wordNNN_toNat hg]
  omega

theorem fieldNNN_wordNNN : fieldNNN (wordNNN g nnn) = nnn := by
  apply BitVec.eq_of_toNat_eq
  have := nnn.isLt
  simp [fieldNNN, field, wordNNN_toNat hg]
  omega

theorem topNibble_wordXKK : topNibble (wordXKK g x kk) = g := by
  have := kk.isLt
  have := x.isLt
  simp [topNibble, field, wordXKK_toNat hg]
  omega

theorem fieldX_wordXKK : fieldX (wordXKK g x kk) = x := by
  apply Fin.ext
  have := kk.isLt
  have := x.isLt
  simp [fieldX, field, wordXKK_toNat hg, Fin.ofNat]
  omega

theorem lowByte_wordXKK : field (wordXKK g x kk) 7 0 = kk.toNat := by
  have := kk.isLt
  have := x.isLt
  simp [field, wordXKK_toNat hg]
  omega

theorem fieldKK_wordXKK : fieldKK (wordXKK g x kk) = kk := by
  apply BitVec.eq_of_toNat_eq
  have := kk.isLt
  simp only [fieldKK, lowByte_wordXKK hg, BitVec.toNat_ofNat]
  omega

theorem topNibble_wordXYN : topNibble (wordXYN g x y n) = g := by
  have := x.isLt
  have := y.isLt
  have := n.isLt
  simp [topNibble, field, wordXYN_toNat hg]
  omega

theorem fieldX_wordXYN : fieldX (wordXYN g x y n) = x := by
  apply Fin.ext
  have := x.isLt
  have := y.isLt
  have := n.isLt
  simp [fieldX, field, wordXYN_toNat hg, Fin.ofNat]
  omega

theorem fieldY_wordXYN : fieldY (wordXYN g x y n) = y := by
  apply Fin.ext
  have := x.isLt
  have := y.isLt
  have := n.isLt
  simp [fieldY, field, wordXYN_toNat hg, Fin.ofNat]
  omega

theorem lowNibble_wordXYN : field (wordXYN g x y n) 3 0 = n.val := by
  have := x.isLt
  have := y.isLt
  have := n.isLt
  simp [field, wordXYN_toNat hg]
  omega

theorem fieldN_wordXYN : fieldN (wordXYN g x y n) = n := by
  apply Fin.ext
  have := n.isLt
  simp only [fieldN, lowNibble_wordXYN hg, Fin.ofNat]
  omega

end Fields

/-- A word laid out as bytes and joined again is the word (R51, R53). -/
theorem joinBytes_split (w : Word) : joinBytes (highByte w) (lowByte w) = w := by
  apply BitVec.eq_of_toNat_eq
  have := w.isLt
  simp [joinBytes, highByte, lowByte, field]
  omega

end Sys2Proof
end

