-- ==== Sys2Proof/Laws/Memory.lean ====
section
/-! SUPPORT. The laws of memory and display: a read after a write, what a write leaves alone, and that every memory operation keeps
the canonical form. -/

namespace Sys2Proof.Machine

/-! ## One byte -/

@[simp] theorem Memory.get_nil (a : Nat) : Memory.get [] a = Memory.unlisted a := rfl

theorem Memory.get_pair (b : Nat) (w : Byte) (rest : Memory) (a : Nat) :
    Memory.get ((b, w) :: rest) a = if b = a then w else Memory.get rest a := rfl

/-- An address below every listed one reads as unlisted. -/
theorem Memory.get_below : ∀ (m : Memory) (a : Nat), (∀ c ∈ m, a < c.1) → Memory.get m a = Memory.unlisted a
  | [], _, _ => rfl
  | (b, w) :: rest, a, h => by
    have hb : b ≠ a := by have := h (b, w) (by simp); simp at this; omega
    rw [Memory.get_pair, if_neg hb]
    exact Memory.get_below rest a fun c hc => h c (by simp [hc])

theorem Memory.get_cons (a : Nat) (v : Byte) (rest : Memory) (b : Nat) (h : ∀ c ∈ rest, a < c.1) :
    Memory.get (Memory.cons a v rest) b = if b = a then v else Memory.get rest b := by
  unfold Memory.cons
  split
  · next hv =>
    split
    · next e => subst e; rw [Memory.get_below rest b h, hv]
    · rfl
  · rw [Memory.get_pair]
    by_cases e : a = b
    · simp [e]
    · rw [if_neg e, if_neg fun h => e h.symm]

theorem Memory.wf_nil : Memory.wf [] := ⟨List.Pairwise.nil, by simp⟩

theorem Memory.wf_tail {c : Host.Cell} {m : Memory} (h : Memory.wf (c :: m)) :
    Memory.wf m ∧ ∀ d ∈ m, c.1 < d.1 :=
  ⟨⟨(List.pairwise_cons.1 h.1).2, fun d hd => h.2 d (by simp [hd])⟩, (List.pairwise_cons.1 h.1).1⟩

theorem Memory.wf_cell {c : Host.Cell} {m : Memory} (hm : Memory.wf m) (hb : ∀ d ∈ m, c.1 < d.1) (hc : c.1 < memSize)
    (hv : c.2 ≠ Memory.unlisted c.1) : Memory.wf (c :: m) :=
  ⟨List.pairwise_cons.2 ⟨hb, hm.1⟩, by
    intro d hd
    rcases List.mem_cons.1 hd with rfl | hd
    · exact ⟨hc, hv⟩
    · exact hm.2 d hd⟩

theorem Memory.wf_cons {a : Nat} {v : Byte} {m : Memory} (hm : Memory.wf m) (hb : ∀ d ∈ m, a < d.1) (ha : a < memSize) :
    Memory.wf (Memory.cons a v m) := by
  unfold Memory.cons
  split
  · exact hm
  · next hv => exact Memory.wf_cell hm hb ha hv

theorem Memory.mem_cons_addr {a : Nat} {v : Byte} {m : Memory} {c : Host.Cell} (h : c ∈ Memory.cons a v m) :
    c.1 = a ∨ c ∈ m := by
  unfold Memory.cons at h
  split at h
  · exact .inr h
  · rcases List.mem_cons.1 h with rfl | h
    · exact .inl rfl
    · exact .inr h

/-- A store adds no address but its own. -/
theorem Memory.mem_put : ∀ (m : Memory) (a : Nat) (v : Byte) (c : Host.Cell), c ∈ Memory.put m a v → c.1 = a ∨ c ∈ m
  | [], a, v, c, h => by simpa [Memory.put] using Memory.mem_cons_addr h
  | (b, w) :: rest, a, v, c, h => by
    unfold Memory.put at h
    split at h
    · exact Memory.mem_cons_addr h
    · split at h
      · rcases Memory.mem_cons_addr h with h | h
        · exact .inl h
        · exact .inr (by simp [h])
      · rcases List.mem_cons.1 h with rfl | h
        · exact .inr (by simp)
        · rcases Memory.mem_put rest a v c h with h | h
          · exact .inl h
          · exact .inr (by simp [h])

/-- A store keeps the canonical form. -/
theorem Memory.put_wf : ∀ (m : Memory) (a : Nat) (v : Byte), Memory.wf m → a < memSize → Memory.wf (Memory.put m a v)
  | [], a, v, h, ha => Memory.wf_cons h (by simp) ha
  | (b, w) :: rest, a, v, h, ha => by
    obtain ⟨hr, hb⟩ := Memory.wf_tail h
    unfold Memory.put
    split
    · next hlt =>
      refine Memory.wf_cons h ?_ ha
      intro d hd
      rcases List.mem_cons.1 hd with rfl | hd
      · exact hlt
      · have := hb d hd; simp at this; omega
    · next hlt =>
      split
      · next e => subst e; exact Memory.wf_cons hr hb ha
      · next hne =>
        refine Memory.wf_cell (Memory.put_wf rest a v hr ha) ?_ (h.2 (b, w) (by simp)).1 (h.2 (b, w) (by simp)).2
        intro d hd
        rcases Memory.mem_put rest a v d hd with h' | h'
        · simp [h']; omega
        · exact hb d h'

/-- A read after a store: the byte stored at its address, and every other byte as before (R60). -/
theorem Memory.get_put : ∀ (m : Memory) (a : Nat) (v : Byte) (b : Nat), Memory.wf m →
    Memory.get (Memory.put m a v) b = if b = a then v else Memory.get m b
  | [], a, v, b, _ => Memory.get_cons a v [] b (by simp)
  | (c, w) :: rest, a, v, b, h => by
    obtain ⟨hr, hc⟩ := Memory.wf_tail h
    unfold Memory.put
    split
    · next hlt =>
      refine Memory.get_cons a v _ b ?_
      intro d hd
      rcases List.mem_cons.1 hd with rfl | hd
      · exact hlt
      · have := hc d hd; simp at this; omega
    · split
      · next e =>
        subst e
        rw [Memory.get_cons a v rest b hc, Memory.get_pair]
        split
        · rfl
        · next hne => rw [if_neg fun h => hne h.symm]
      · next hne =>
        rw [Memory.get_pair, Memory.get_pair, Memory.get_put rest a v b hr]
        split
        · next e => subst e; rw [if_neg fun h => hne h.symm]
        · rfl

/-! ## Many bytes -/

/-- Storing bytes in bounds keeps the canonical form. -/
theorem Memory.putAll_wf : ∀ (bs : List Byte) (m : Memory) (a : Nat), Memory.wf m → (bs = [] ∨ a + bs.length ≤ memSize) →
    Memory.wf (Memory.putAll m a bs)
  | [], _, _, h, _ => h
  | v :: rest, m, a, h, hb => by
    have hb : a + (rest.length + 1) ≤ memSize := by simpa using hb
    exact Memory.putAll_wf rest _ (a + 1) (Memory.put_wf m a v h (by omega)) (.inr (by omega))

/-- A read after a multi-byte store in bounds. -/
theorem Memory.get_putAll : ∀ (bs : List Byte) (m : Memory) (a b : Nat), Memory.wf m → (bs = [] ∨ a + bs.length ≤ memSize) →
    Memory.get (Memory.putAll m a bs) b = if a ≤ b ∧ b < a + bs.length then bs.getD (b - a) 0 else Memory.get m b
  | [], m, a, b, _, _ => by
    rw [Memory.putAll, if_neg]
    simp
  | v :: rest, m, a, b, h, hb => by
    have hb : a + (rest.length + 1) ≤ memSize := by simpa using hb
    have hw := Memory.put_wf m a v h (by omega : a < memSize)
    rw [Memory.putAll, Memory.get_putAll rest _ (a + 1) b hw (.inr (by omega)), Memory.get_put m a v b h]
    simp only [List.length_cons]
    rcases Nat.lt_trichotomy b a with hl | rfl | hg
    · rw [if_neg (by omega), if_neg (by omega), if_neg (by omega)]
    · rw [if_neg (by omega), if_pos rfl, if_pos (by omega)]
      simp
    · by_cases hr : b < a + (rest.length + 1)
      · rw [if_pos (by omega), if_pos (by omega)]
        have e : b - a = (b - (a + 1)) + 1 := by omega
        rw [e, List.getD_cons_succ]
      · rw [if_neg (by omega), if_neg (by omega), if_neg (by omega)]

/-- Storing some of the bytes, those in bounds at most, keeps the canonical form. -/
theorem Memory.putSome_wf (pick : Nat → Bool) : ∀ (bs : List Byte) (m : Memory) (a k : Nat), Memory.wf m →
    (∀ j, pick (k + j) = true → a + j < memSize) → Memory.wf (Memory.putSome pick m a k bs)
  | [], _, _, _, h, _ => h
  | v :: rest, m, a, k, h, hp => by
    refine Memory.putSome_wf pick rest _ (a + 1) (k + 1) ?_ ?_
    · split
      · next e => exact Memory.put_wf m a v h (hp 0 e)
      · exact h
    · intro j hj
      have := hp (j + 1) (by rw [← hj]; congr 1; omega)
      omega

/-- A read after storing some of the bytes: a picked byte is new, every other byte as before (R249). -/
theorem Memory.get_putSome (pick : Nat → Bool) : ∀ (bs : List Byte) (m : Memory) (a k b : Nat), Memory.wf m →
    (∀ j, pick (k + j) = true → a + j < memSize) →
    Memory.get (Memory.putSome pick m a k bs) b
      = if a ≤ b ∧ b < a + bs.length ∧ pick (k + (b - a)) = true then bs.getD (b - a) 0 else Memory.get m b
  | [], m, a, k, b, _, _ => by
    rw [Memory.putSome, if_neg]
    rintro ⟨h1, h2, -⟩
    simp at h2
    omega
  | v :: rest, m, a, k, b, h, hp => by
    have hw : Memory.wf (if pick k then Memory.put m a v else m) := by
      split
      · next e => exact Memory.put_wf m a v h (hp 0 e)
      · exact h
    have hp' : ∀ j, pick (k + 1 + j) = true → a + 1 + j < memSize := by
      intro j hj
      have := hp (j + 1) (by rw [← hj]; congr 1; omega)
      omega
    rw [Memory.putSome, Memory.get_putSome pick rest _ (a + 1) (k + 1) b hw hp']
    simp only [List.length_cons]
    have old : b ≠ a → Memory.get (if pick k then Memory.put m a v else m) b = Memory.get m b := by
      intro hne
      split
      · rw [Memory.get_put m a v b h, if_neg hne]
      · rfl
    rcases Nat.lt_trichotomy b a with hl | rfl | hg
    · rw [if_neg fun h => by omega, old (by omega), if_neg fun h => by omega]
    · rw [if_neg fun h => by omega]
      by_cases e : pick k = true
      · rw [if_pos e, Memory.get_put m b v b h, if_pos rfl, if_pos ⟨by omega, by omega, by simpa using e⟩]
        simp
      · rw [if_neg e, if_neg]
        simp [e]
    · have e1 : k + 1 + (b - (a + 1)) = k + (b - a) := by omega
      have e2 : b - a = (b - (a + 1)) + 1 := by omega
      rw [e1, old (by omega)]
      by_cases c : b < a + (rest.length + 1) ∧ pick (k + (b - a)) = true
      · rw [if_pos ⟨by omega, by omega, c.2⟩, if_pos ⟨by omega, by omega, c.2⟩]
        conv_rhs => rw [e2, List.getD_cons_succ]
      · rw [if_neg fun h => c ⟨by omega, h.2.2⟩, if_neg fun h => c ⟨by omega, h.2.2⟩]

/-! ## The bounds check -/

/-- The first address out of bounds: none when there is no byte or all are in memory, else the first of `base` and 0x1000 (R55). -/
theorem firstOutOfRange_eq (base n : Nat) :
    firstOutOfRange base n = if n = 0 ∨ base + n ≤ memSize then none else some (max base memSize) := by
  unfold firstOutOfRange
  split
  · next h =>
    rw [List.find?_eq_none]
    intro a ha
    obtain ⟨k, hk, rfl⟩ := List.mem_map.1 ha
    have := List.mem_range.1 hk
    simp
    omega
  · next h =>
    rw [List.find?_eq_some_iff_getElem]
    refine ⟨by simp, max base memSize - base, by simp; omega, by simp, ?_⟩
    intro j hj
    simp
    omega

/-! ## Display -/

/-- A pixel read after a pixel write (R262). -/
theorem Display.get_set (d : Display) (x x' : Fin 64) (y y' : Fin 32) (b : Bool) :
    Display.get (Display.set d x y b) x' y' = if x' = x ∧ y' = y then b else Display.get d x' y' := by
  have ey : (y.val = y'.val) = (y' = y) := by rw [Fin.ext_iff]; exact propext ⟨Eq.symm, Eq.symm⟩
  have ex : (x.val = x'.val) = (x' = x) := by rw [Fin.ext_iff]; exact propext ⟨Eq.symm, Eq.symm⟩
  unfold Display.get Display.set
  rw [Vector.getElem_set]
  by_cases hy : y' = y
  · subst hy
    simp [Vector.getElem_set, ex]
  · simp [ey, hy]

/-- Every pixel of a blank display is 0. -/
@[simp] theorem Display.get_blank (x : Fin 64) (y : Fin 32) : Display.get Display.blank x y = false := by
  simp [Display.get, Display.blank]

@[simp] theorem Display.get_clear (d : Display) (x : Fin 64) (y : Fin 32) : Display.get (Display.clear d) x y = false :=
  Display.get_blank x y

/-- A pixel of a mix is the new one or the old one. -/
theorem Display.get_mix (pick : Nat → Bool) (old new : Display) (x : Fin 64) (y : Fin 32) :
    Display.get (Display.mix pick old new) x y
      = if pick (y.val * 64 + x.val) then Display.get new x y else Display.get old x y := by
  simp [Display.mix, Display.get]

/-- Displays that read the same everywhere are the same. -/
theorem Display.ext_get {d e : Display} (h : ∀ x y, Display.get d x y = Display.get e x y) : d = e :=
  Vector.ext fun i hi => Vector.ext fun j hj => h ⟨j, hj⟩ ⟨i, hi⟩

end Sys2Proof.Machine
end

