-- ==== Sys2Proof/Laws/State.lean ====
section
/-! SUPPORT. One lemma per field per update of the state, so that no proof unfolds a record update, and the register laws. -/

namespace Sys2Proof.Machine

open Sys2Proof.Config

variable (s : State)

/-! ### State.setI -/

@[simp] theorem State.setI_v (a : Word) : (s.setI a).v = s.v := rfl
@[simp] theorem State.setI_i (a : Word) : (s.setI a).i = a := rfl
@[simp] theorem State.setI_pc (a : Word) : (s.setI a).pc = s.pc := rfl
@[simp] theorem State.setI_stack (a : Word) : (s.setI a).stack = s.stack := rfl
@[simp] theorem State.setI_dt (a : Word) : (s.setI a).dt = s.dt := rfl
@[simp] theorem State.setI_st (a : Word) : (s.setI a).st = s.st := rfl
@[simp] theorem State.setI_mem (a : Word) : (s.setI a).mem = s.mem := rfl
@[simp] theorem State.setI_display (a : Word) : (s.setI a).display = s.display := rfl
@[simp] theorem State.setI_engine (a : Word) : (s.setI a).engine = s.engine := rfl
@[simp] theorem State.setI_opcode (a : Word) : (s.setI a).opcode = s.opcode := rfl
@[simp] theorem State.setI_context (a : Word) : (s.setI a).context = s.context := rfl
@[simp] theorem State.setI_observers (a : Word) : (s.setI a).observers = s.observers := rfl
@[simp] theorem State.setI_params (a : Word) : (s.setI a).params = s.params := rfl
@[simp] theorem State.setI_schedule (a : Word) : (s.setI a).schedule = s.schedule := rfl
@[simp] theorem State.setI_keypad (a : Word) : (s.setI a).keypad = s.keypad := rfl
@[simp] theorem State.setI_polls (a : Word) : (s.setI a).polls = s.polls := rfl
@[simp] theorem State.setI_random (a : Word) : (s.setI a).random = s.random := rfl
@[simp] theorem State.setI_halts (a : Word) : (s.setI a).halts = s.halts := rfl
@[simp] theorem State.setI_torn (a : Word) : (s.setI a).torn = s.torn := rfl
@[simp] theorem State.setI_V (a : Word) (r : Reg) : (s.setI a).V r = s.V r := rfl

/-! ### State.setPc -/

@[simp] theorem State.setPc_v (a : Word) : (s.setPc a).v = s.v := rfl
@[simp] theorem State.setPc_i (a : Word) : (s.setPc a).i = s.i := rfl
@[simp] theorem State.setPc_pc (a : Word) : (s.setPc a).pc = a := rfl
@[simp] theorem State.setPc_stack (a : Word) : (s.setPc a).stack = s.stack := rfl
@[simp] theorem State.setPc_dt (a : Word) : (s.setPc a).dt = s.dt := rfl
@[simp] theorem State.setPc_st (a : Word) : (s.setPc a).st = s.st := rfl
@[simp] theorem State.setPc_mem (a : Word) : (s.setPc a).mem = s.mem := rfl
@[simp] theorem State.setPc_display (a : Word) : (s.setPc a).display = s.display := rfl
@[simp] theorem State.setPc_engine (a : Word) : (s.setPc a).engine = s.engine := rfl
@[simp] theorem State.setPc_opcode (a : Word) : (s.setPc a).opcode = s.opcode := rfl
@[simp] theorem State.setPc_context (a : Word) : (s.setPc a).context = s.context := rfl
@[simp] theorem State.setPc_observers (a : Word) : (s.setPc a).observers = s.observers := rfl
@[simp] theorem State.setPc_params (a : Word) : (s.setPc a).params = s.params := rfl
@[simp] theorem State.setPc_schedule (a : Word) : (s.setPc a).schedule = s.schedule := rfl
@[simp] theorem State.setPc_keypad (a : Word) : (s.setPc a).keypad = s.keypad := rfl
@[simp] theorem State.setPc_polls (a : Word) : (s.setPc a).polls = s.polls := rfl
@[simp] theorem State.setPc_random (a : Word) : (s.setPc a).random = s.random := rfl
@[simp] theorem State.setPc_halts (a : Word) : (s.setPc a).halts = s.halts := rfl
@[simp] theorem State.setPc_torn (a : Word) : (s.setPc a).torn = s.torn := rfl
@[simp] theorem State.setPc_V (a : Word) (r : Reg) : (s.setPc a).V r = s.V r := rfl

/-! ### State.setStack -/

@[simp] theorem State.setStack_v (a : List Word) : (s.setStack a).v = s.v := rfl
@[simp] theorem State.setStack_i (a : List Word) : (s.setStack a).i = s.i := rfl
@[simp] theorem State.setStack_pc (a : List Word) : (s.setStack a).pc = s.pc := rfl
@[simp] theorem State.setStack_stack (a : List Word) : (s.setStack a).stack = a := rfl
@[simp] theorem State.setStack_dt (a : List Word) : (s.setStack a).dt = s.dt := rfl
@[simp] theorem State.setStack_st (a : List Word) : (s.setStack a).st = s.st := rfl
@[simp] theorem State.setStack_mem (a : List Word) : (s.setStack a).mem = s.mem := rfl
@[simp] theorem State.setStack_display (a : List Word) : (s.setStack a).display = s.display := rfl
@[simp] theorem State.setStack_engine (a : List Word) : (s.setStack a).engine = s.engine := rfl
@[simp] theorem State.setStack_opcode (a : List Word) : (s.setStack a).opcode = s.opcode := rfl
@[simp] theorem State.setStack_context (a : List Word) : (s.setStack a).context = s.context := rfl
@[simp] theorem State.setStack_observers (a : List Word) : (s.setStack a).observers = s.observers := rfl
@[simp] theorem State.setStack_params (a : List Word) : (s.setStack a).params = s.params := rfl
@[simp] theorem State.setStack_schedule (a : List Word) : (s.setStack a).schedule = s.schedule := rfl
@[simp] theorem State.setStack_keypad (a : List Word) : (s.setStack a).keypad = s.keypad := rfl
@[simp] theorem State.setStack_polls (a : List Word) : (s.setStack a).polls = s.polls := rfl
@[simp] theorem State.setStack_random (a : List Word) : (s.setStack a).random = s.random := rfl
@[simp] theorem State.setStack_halts (a : List Word) : (s.setStack a).halts = s.halts := rfl
@[simp] theorem State.setStack_torn (a : List Word) : (s.setStack a).torn = s.torn := rfl
@[simp] theorem State.setStack_V (a : List Word) (r : Reg) : (s.setStack a).V r = s.V r := rfl

/-! ### State.setDt -/

@[simp] theorem State.setDt_v (a : Byte) : (s.setDt a).v = s.v := rfl
@[simp] theorem State.setDt_i (a : Byte) : (s.setDt a).i = s.i := rfl
@[simp] theorem State.setDt_pc (a : Byte) : (s.setDt a).pc = s.pc := rfl
@[simp] theorem State.setDt_stack (a : Byte) : (s.setDt a).stack = s.stack := rfl
@[simp] theorem State.setDt_dt (a : Byte) : (s.setDt a).dt = a := rfl
@[simp] theorem State.setDt_st (a : Byte) : (s.setDt a).st = s.st := rfl
@[simp] theorem State.setDt_mem (a : Byte) : (s.setDt a).mem = s.mem := rfl
@[simp] theorem State.setDt_display (a : Byte) : (s.setDt a).display = s.display := rfl
@[simp] theorem State.setDt_engine (a : Byte) : (s.setDt a).engine = s.engine := rfl
@[simp] theorem State.setDt_opcode (a : Byte) : (s.setDt a).opcode = s.opcode := rfl
@[simp] theorem State.setDt_context (a : Byte) : (s.setDt a).context = s.context := rfl
@[simp] theorem State.setDt_observers (a : Byte) : (s.setDt a).observers = s.observers := rfl
@[simp] theorem State.setDt_params (a : Byte) : (s.setDt a).params = s.params := rfl
@[simp] theorem State.setDt_schedule (a : Byte) : (s.setDt a).schedule = s.schedule := rfl
@[simp] theorem State.setDt_keypad (a : Byte) : (s.setDt a).keypad = s.keypad := rfl
@[simp] theorem State.setDt_polls (a : Byte) : (s.setDt a).polls = s.polls := rfl
@[simp] theorem State.setDt_random (a : Byte) : (s.setDt a).random = s.random := rfl
@[simp] theorem State.setDt_halts (a : Byte) : (s.setDt a).halts = s.halts := rfl
@[simp] theorem State.setDt_torn (a : Byte) : (s.setDt a).torn = s.torn := rfl
@[simp] theorem State.setDt_V (a : Byte) (r : Reg) : (s.setDt a).V r = s.V r := rfl

/-! ### State.setSt -/

@[simp] theorem State.setSt_v (a : Byte) : (s.setSt a).v = s.v := rfl
@[simp] theorem State.setSt_i (a : Byte) : (s.setSt a).i = s.i := rfl
@[simp] theorem State.setSt_pc (a : Byte) : (s.setSt a).pc = s.pc := rfl
@[simp] theorem State.setSt_stack (a : Byte) : (s.setSt a).stack = s.stack := rfl
@[simp] theorem State.setSt_dt (a : Byte) : (s.setSt a).dt = s.dt := rfl
@[simp] theorem State.setSt_st (a : Byte) : (s.setSt a).st = a := rfl
@[simp] theorem State.setSt_mem (a : Byte) : (s.setSt a).mem = s.mem := rfl
@[simp] theorem State.setSt_display (a : Byte) : (s.setSt a).display = s.display := rfl
@[simp] theorem State.setSt_engine (a : Byte) : (s.setSt a).engine = s.engine := rfl
@[simp] theorem State.setSt_opcode (a : Byte) : (s.setSt a).opcode = s.opcode := rfl
@[simp] theorem State.setSt_context (a : Byte) : (s.setSt a).context = s.context := rfl
@[simp] theorem State.setSt_observers (a : Byte) : (s.setSt a).observers = s.observers := rfl
@[simp] theorem State.setSt_params (a : Byte) : (s.setSt a).params = s.params := rfl
@[simp] theorem State.setSt_schedule (a : Byte) : (s.setSt a).schedule = s.schedule := rfl
@[simp] theorem State.setSt_keypad (a : Byte) : (s.setSt a).keypad = s.keypad := rfl
@[simp] theorem State.setSt_polls (a : Byte) : (s.setSt a).polls = s.polls := rfl
@[simp] theorem State.setSt_random (a : Byte) : (s.setSt a).random = s.random := rfl
@[simp] theorem State.setSt_halts (a : Byte) : (s.setSt a).halts = s.halts := rfl
@[simp] theorem State.setSt_torn (a : Byte) : (s.setSt a).torn = s.torn := rfl
@[simp] theorem State.setSt_V (a : Byte) (r : Reg) : (s.setSt a).V r = s.V r := rfl

/-! ### State.setMem -/

@[simp] theorem State.setMem_v (a : Memory) : (s.setMem a).v = s.v := rfl
@[simp] theorem State.setMem_i (a : Memory) : (s.setMem a).i = s.i := rfl
@[simp] theorem State.setMem_pc (a : Memory) : (s.setMem a).pc = s.pc := rfl
@[simp] theorem State.setMem_stack (a : Memory) : (s.setMem a).stack = s.stack := rfl
@[simp] theorem State.setMem_dt (a : Memory) : (s.setMem a).dt = s.dt := rfl
@[simp] theorem State.setMem_st (a : Memory) : (s.setMem a).st = s.st := rfl
@[simp] theorem State.setMem_mem (a : Memory) : (s.setMem a).mem = a := rfl
@[simp] theorem State.setMem_display (a : Memory) : (s.setMem a).display = s.display := rfl
@[simp] theorem State.setMem_engine (a : Memory) : (s.setMem a).engine = s.engine := rfl
@[simp] theorem State.setMem_opcode (a : Memory) : (s.setMem a).opcode = s.opcode := rfl
@[simp] theorem State.setMem_context (a : Memory) : (s.setMem a).context = s.context := rfl
@[simp] theorem State.setMem_observers (a : Memory) : (s.setMem a).observers = s.observers := rfl
@[simp] theorem State.setMem_params (a : Memory) : (s.setMem a).params = s.params := rfl
@[simp] theorem State.setMem_schedule (a : Memory) : (s.setMem a).schedule = s.schedule := rfl
@[simp] theorem State.setMem_keypad (a : Memory) : (s.setMem a).keypad = s.keypad := rfl
@[simp] theorem State.setMem_polls (a : Memory) : (s.setMem a).polls = s.polls := rfl
@[simp] theorem State.setMem_random (a : Memory) : (s.setMem a).random = s.random := rfl
@[simp] theorem State.setMem_halts (a : Memory) : (s.setMem a).halts = s.halts := rfl
@[simp] theorem State.setMem_torn (a : Memory) : (s.setMem a).torn = s.torn := rfl
@[simp] theorem State.setMem_V (a : Memory) (r : Reg) : (s.setMem a).V r = s.V r := rfl

/-! ### State.setDisplay -/

@[simp] theorem State.setDisplay_v (a : Display) : (s.setDisplay a).v = s.v := rfl
@[simp] theorem State.setDisplay_i (a : Display) : (s.setDisplay a).i = s.i := rfl
@[simp] theorem State.setDisplay_pc (a : Display) : (s.setDisplay a).pc = s.pc := rfl
@[simp] theorem State.setDisplay_stack (a : Display) : (s.setDisplay a).stack = s.stack := rfl
@[simp] theorem State.setDisplay_dt (a : Display) : (s.setDisplay a).dt = s.dt := rfl
@[simp] theorem State.setDisplay_st (a : Display) : (s.setDisplay a).st = s.st := rfl
@[simp] theorem State.setDisplay_mem (a : Display) : (s.setDisplay a).mem = s.mem := rfl
@[simp] theorem State.setDisplay_display (a : Display) : (s.setDisplay a).display = a := rfl
@[simp] theorem State.setDisplay_engine (a : Display) : (s.setDisplay a).engine = s.engine := rfl
@[simp] theorem State.setDisplay_opcode (a : Display) : (s.setDisplay a).opcode = s.opcode := rfl
@[simp] theorem State.setDisplay_context (a : Display) : (s.setDisplay a).context = s.context := rfl
@[simp] theorem State.setDisplay_observers (a : Display) : (s.setDisplay a).observers = s.observers := rfl
@[simp] theorem State.setDisplay_params (a : Display) : (s.setDisplay a).params = s.params := rfl
@[simp] theorem State.setDisplay_schedule (a : Display) : (s.setDisplay a).schedule = s.schedule := rfl
@[simp] theorem State.setDisplay_keypad (a : Display) : (s.setDisplay a).keypad = s.keypad := rfl
@[simp] theorem State.setDisplay_polls (a : Display) : (s.setDisplay a).polls = s.polls := rfl
@[simp] theorem State.setDisplay_random (a : Display) : (s.setDisplay a).random = s.random := rfl
@[simp] theorem State.setDisplay_halts (a : Display) : (s.setDisplay a).halts = s.halts := rfl
@[simp] theorem State.setDisplay_torn (a : Display) : (s.setDisplay a).torn = s.torn := rfl
@[simp] theorem State.setDisplay_V (a : Display) (r : Reg) : (s.setDisplay a).V r = s.V r := rfl

/-! ### State.setEngine -/

@[simp] theorem State.setEngine_v (a : Engine) : (s.setEngine a).v = s.v := rfl
@[simp] theorem State.setEngine_i (a : Engine) : (s.setEngine a).i = s.i := rfl
@[simp] theorem State.setEngine_pc (a : Engine) : (s.setEngine a).pc = s.pc := rfl
@[simp] theorem State.setEngine_stack (a : Engine) : (s.setEngine a).stack = s.stack := rfl
@[simp] theorem State.setEngine_dt (a : Engine) : (s.setEngine a).dt = s.dt := rfl
@[simp] theorem State.setEngine_st (a : Engine) : (s.setEngine a).st = s.st := rfl
@[simp] theorem State.setEngine_mem (a : Engine) : (s.setEngine a).mem = s.mem := rfl
@[simp] theorem State.setEngine_display (a : Engine) : (s.setEngine a).display = s.display := rfl
@[simp] theorem State.setEngine_engine (a : Engine) : (s.setEngine a).engine = a := rfl
@[simp] theorem State.setEngine_opcode (a : Engine) : (s.setEngine a).opcode = s.opcode := rfl
@[simp] theorem State.setEngine_context (a : Engine) : (s.setEngine a).context = s.context := rfl
@[simp] theorem State.setEngine_observers (a : Engine) : (s.setEngine a).observers = s.observers := rfl
@[simp] theorem State.setEngine_params (a : Engine) : (s.setEngine a).params = s.params := rfl
@[simp] theorem State.setEngine_schedule (a : Engine) : (s.setEngine a).schedule = s.schedule := rfl
@[simp] theorem State.setEngine_keypad (a : Engine) : (s.setEngine a).keypad = s.keypad := rfl
@[simp] theorem State.setEngine_polls (a : Engine) : (s.setEngine a).polls = s.polls := rfl
@[simp] theorem State.setEngine_random (a : Engine) : (s.setEngine a).random = s.random := rfl
@[simp] theorem State.setEngine_halts (a : Engine) : (s.setEngine a).halts = s.halts := rfl
@[simp] theorem State.setEngine_torn (a : Engine) : (s.setEngine a).torn = s.torn := rfl
@[simp] theorem State.setEngine_V (a : Engine) (r : Reg) : (s.setEngine a).V r = s.V r := rfl

/-! ### State.setOpcode -/

@[simp] theorem State.setOpcode_v (a : Option Word) : (s.setOpcode a).v = s.v := rfl
@[simp] theorem State.setOpcode_i (a : Option Word) : (s.setOpcode a).i = s.i := rfl
@[simp] theorem State.setOpcode_pc (a : Option Word) : (s.setOpcode a).pc = s.pc := rfl
@[simp] theorem State.setOpcode_stack (a : Option Word) : (s.setOpcode a).stack = s.stack := rfl
@[simp] theorem State.setOpcode_dt (a : Option Word) : (s.setOpcode a).dt = s.dt := rfl
@[simp] theorem State.setOpcode_st (a : Option Word) : (s.setOpcode a).st = s.st := rfl
@[simp] theorem State.setOpcode_mem (a : Option Word) : (s.setOpcode a).mem = s.mem := rfl
@[simp] theorem State.setOpcode_display (a : Option Word) : (s.setOpcode a).display = s.display := rfl
@[simp] theorem State.setOpcode_engine (a : Option Word) : (s.setOpcode a).engine = s.engine := rfl
@[simp] theorem State.setOpcode_opcode (a : Option Word) : (s.setOpcode a).opcode = a := rfl
@[simp] theorem State.setOpcode_context (a : Option Word) : (s.setOpcode a).context = s.context := rfl
@[simp] theorem State.setOpcode_observers (a : Option Word) : (s.setOpcode a).observers = s.observers := rfl
@[simp] theorem State.setOpcode_params (a : Option Word) : (s.setOpcode a).params = s.params := rfl
@[simp] theorem State.setOpcode_schedule (a : Option Word) : (s.setOpcode a).schedule = s.schedule := rfl
@[simp] theorem State.setOpcode_keypad (a : Option Word) : (s.setOpcode a).keypad = s.keypad := rfl
@[simp] theorem State.setOpcode_polls (a : Option Word) : (s.setOpcode a).polls = s.polls := rfl
@[simp] theorem State.setOpcode_random (a : Option Word) : (s.setOpcode a).random = s.random := rfl
@[simp] theorem State.setOpcode_halts (a : Option Word) : (s.setOpcode a).halts = s.halts := rfl
@[simp] theorem State.setOpcode_torn (a : Option Word) : (s.setOpcode a).torn = s.torn := rfl
@[simp] theorem State.setOpcode_V (a : Option Word) (r : Reg) : (s.setOpcode a).V r = s.V r := rfl

/-! ### State.setContext -/

@[simp] theorem State.setContext_v (a : Option CycleContext) : (s.setContext a).v = s.v := rfl
@[simp] theorem State.setContext_i (a : Option CycleContext) : (s.setContext a).i = s.i := rfl
@[simp] theorem State.setContext_pc (a : Option CycleContext) : (s.setContext a).pc = s.pc := rfl
@[simp] theorem State.setContext_stack (a : Option CycleContext) : (s.setContext a).stack = s.stack := rfl
@[simp] theorem State.setContext_dt (a : Option CycleContext) : (s.setContext a).dt = s.dt := rfl
@[simp] theorem State.setContext_st (a : Option CycleContext) : (s.setContext a).st = s.st := rfl
@[simp] theorem State.setContext_mem (a : Option CycleContext) : (s.setContext a).mem = s.mem := rfl
@[simp] theorem State.setContext_display (a : Option CycleContext) : (s.setContext a).display = s.display := rfl
@[simp] theorem State.setContext_engine (a : Option CycleContext) : (s.setContext a).engine = s.engine := rfl
@[simp] theorem State.setContext_opcode (a : Option CycleContext) : (s.setContext a).opcode = s.opcode := rfl
@[simp] theorem State.setContext_context (a : Option CycleContext) : (s.setContext a).context = a := rfl
@[simp] theorem State.setContext_observers (a : Option CycleContext) : (s.setContext a).observers = s.observers := rfl
@[simp] theorem State.setContext_params (a : Option CycleContext) : (s.setContext a).params = s.params := rfl
@[simp] theorem State.setContext_schedule (a : Option CycleContext) : (s.setContext a).schedule = s.schedule := rfl
@[simp] theorem State.setContext_keypad (a : Option CycleContext) : (s.setContext a).keypad = s.keypad := rfl
@[simp] theorem State.setContext_polls (a : Option CycleContext) : (s.setContext a).polls = s.polls := rfl
@[simp] theorem State.setContext_random (a : Option CycleContext) : (s.setContext a).random = s.random := rfl
@[simp] theorem State.setContext_halts (a : Option CycleContext) : (s.setContext a).halts = s.halts := rfl
@[simp] theorem State.setContext_torn (a : Option CycleContext) : (s.setContext a).torn = s.torn := rfl
@[simp] theorem State.setContext_V (a : Option CycleContext) (r : Reg) : (s.setContext a).V r = s.V r := rfl

/-! ### State.setObservers -/

@[simp] theorem State.setObservers_v (a : List Observer) : (s.setObservers a).v = s.v := rfl
@[simp] theorem State.setObservers_i (a : List Observer) : (s.setObservers a).i = s.i := rfl
@[simp] theorem State.setObservers_pc (a : List Observer) : (s.setObservers a).pc = s.pc := rfl
@[simp] theorem State.setObservers_stack (a : List Observer) : (s.setObservers a).stack = s.stack := rfl
@[simp] theorem State.setObservers_dt (a : List Observer) : (s.setObservers a).dt = s.dt := rfl
@[simp] theorem State.setObservers_st (a : List Observer) : (s.setObservers a).st = s.st := rfl
@[simp] theorem State.setObservers_mem (a : List Observer) : (s.setObservers a).mem = s.mem := rfl
@[simp] theorem State.setObservers_display (a : List Observer) : (s.setObservers a).display = s.display := rfl
@[simp] theorem State.setObservers_engine (a : List Observer) : (s.setObservers a).engine = s.engine := rfl
@[simp] theorem State.setObservers_opcode (a : List Observer) : (s.setObservers a).opcode = s.opcode := rfl
@[simp] theorem State.setObservers_context (a : List Observer) : (s.setObservers a).context = s.context := rfl
@[simp] theorem State.setObservers_observers (a : List Observer) : (s.setObservers a).observers = a := rfl
@[simp] theorem State.setObservers_params (a : List Observer) : (s.setObservers a).params = s.params := rfl
@[simp] theorem State.setObservers_schedule (a : List Observer) : (s.setObservers a).schedule = s.schedule := rfl
@[simp] theorem State.setObservers_keypad (a : List Observer) : (s.setObservers a).keypad = s.keypad := rfl
@[simp] theorem State.setObservers_polls (a : List Observer) : (s.setObservers a).polls = s.polls := rfl
@[simp] theorem State.setObservers_random (a : List Observer) : (s.setObservers a).random = s.random := rfl
@[simp] theorem State.setObservers_halts (a : List Observer) : (s.setObservers a).halts = s.halts := rfl
@[simp] theorem State.setObservers_torn (a : List Observer) : (s.setObservers a).torn = s.torn := rfl
@[simp] theorem State.setObservers_V (a : List Observer) (r : Reg) : (s.setObservers a).V r = s.V r := rfl

/-! ### State.setParams -/

@[simp] theorem State.setParams_v (a : Params) : (s.setParams a).v = s.v := rfl
@[simp] theorem State.setParams_i (a : Params) : (s.setParams a).i = s.i := rfl
@[simp] theorem State.setParams_pc (a : Params) : (s.setParams a).pc = s.pc := rfl
@[simp] theorem State.setParams_stack (a : Params) : (s.setParams a).stack = s.stack := rfl
@[simp] theorem State.setParams_dt (a : Params) : (s.setParams a).dt = s.dt := rfl
@[simp] theorem State.setParams_st (a : Params) : (s.setParams a).st = s.st := rfl
@[simp] theorem State.setParams_mem (a : Params) : (s.setParams a).mem = s.mem := rfl
@[simp] theorem State.setParams_display (a : Params) : (s.setParams a).display = s.display := rfl
@[simp] theorem State.setParams_engine (a : Params) : (s.setParams a).engine = s.engine := rfl
@[simp] theorem State.setParams_opcode (a : Params) : (s.setParams a).opcode = s.opcode := rfl
@[simp] theorem State.setParams_context (a : Params) : (s.setParams a).context = s.context := rfl
@[simp] theorem State.setParams_observers (a : Params) : (s.setParams a).observers = s.observers := rfl
@[simp] theorem State.setParams_params (a : Params) : (s.setParams a).params = a := rfl
@[simp] theorem State.setParams_schedule (a : Params) : (s.setParams a).schedule = s.schedule := rfl
@[simp] theorem State.setParams_keypad (a : Params) : (s.setParams a).keypad = s.keypad := rfl
@[simp] theorem State.setParams_polls (a : Params) : (s.setParams a).polls = s.polls := rfl
@[simp] theorem State.setParams_random (a : Params) : (s.setParams a).random = s.random := rfl
@[simp] theorem State.setParams_halts (a : Params) : (s.setParams a).halts = s.halts := rfl
@[simp] theorem State.setParams_torn (a : Params) : (s.setParams a).torn = s.torn := rfl
@[simp] theorem State.setParams_V (a : Params) (r : Reg) : (s.setParams a).V r = s.V r := rfl

/-! ### State.setSchedule -/

@[simp] theorem State.setSchedule_v (a : Feed Event) : (s.setSchedule a).v = s.v := rfl
@[simp] theorem State.setSchedule_i (a : Feed Event) : (s.setSchedule a).i = s.i := rfl
@[simp] theorem State.setSchedule_pc (a : Feed Event) : (s.setSchedule a).pc = s.pc := rfl
@[simp] theorem State.setSchedule_stack (a : Feed Event) : (s.setSchedule a).stack = s.stack := rfl
@[simp] theorem State.setSchedule_dt (a : Feed Event) : (s.setSchedule a).dt = s.dt := rfl
@[simp] theorem State.setSchedule_st (a : Feed Event) : (s.setSchedule a).st = s.st := rfl
@[simp] theorem State.setSchedule_mem (a : Feed Event) : (s.setSchedule a).mem = s.mem := rfl
@[simp] theorem State.setSchedule_display (a : Feed Event) : (s.setSchedule a).display = s.display := rfl
@[simp] theorem State.setSchedule_engine (a : Feed Event) : (s.setSchedule a).engine = s.engine := rfl
@[simp] theorem State.setSchedule_opcode (a : Feed Event) : (s.setSchedule a).opcode = s.opcode := rfl
@[simp] theorem State.setSchedule_context (a : Feed Event) : (s.setSchedule a).context = s.context := rfl
@[simp] theorem State.setSchedule_observers (a : Feed Event) : (s.setSchedule a).observers = s.observers := rfl
@[simp] theorem State.setSchedule_params (a : Feed Event) : (s.setSchedule a).params = s.params := rfl
@[simp] theorem State.setSchedule_schedule (a : Feed Event) : (s.setSchedule a).schedule = a := rfl
@[simp] theorem State.setSchedule_keypad (a : Feed Event) : (s.setSchedule a).keypad = s.keypad := rfl
@[simp] theorem State.setSchedule_polls (a : Feed Event) : (s.setSchedule a).polls = s.polls := rfl
@[simp] theorem State.setSchedule_random (a : Feed Event) : (s.setSchedule a).random = s.random := rfl
@[simp] theorem State.setSchedule_halts (a : Feed Event) : (s.setSchedule a).halts = s.halts := rfl
@[simp] theorem State.setSchedule_torn (a : Feed Event) : (s.setSchedule a).torn = s.torn := rfl
@[simp] theorem State.setSchedule_V (a : Feed Event) (r : Reg) : (s.setSchedule a).V r = s.V r := rfl

/-! ### State.setKeypad -/

@[simp] theorem State.setKeypad_v (a : Feed Keypad) : (s.setKeypad a).v = s.v := rfl
@[simp] theorem State.setKeypad_i (a : Feed Keypad) : (s.setKeypad a).i = s.i := rfl
@[simp] theorem State.setKeypad_pc (a : Feed Keypad) : (s.setKeypad a).pc = s.pc := rfl
@[simp] theorem State.setKeypad_stack (a : Feed Keypad) : (s.setKeypad a).stack = s.stack := rfl
@[simp] theorem State.setKeypad_dt (a : Feed Keypad) : (s.setKeypad a).dt = s.dt := rfl
@[simp] theorem State.setKeypad_st (a : Feed Keypad) : (s.setKeypad a).st = s.st := rfl
@[simp] theorem State.setKeypad_mem (a : Feed Keypad) : (s.setKeypad a).mem = s.mem := rfl
@[simp] theorem State.setKeypad_display (a : Feed Keypad) : (s.setKeypad a).display = s.display := rfl
@[simp] theorem State.setKeypad_engine (a : Feed Keypad) : (s.setKeypad a).engine = s.engine := rfl
@[simp] theorem State.setKeypad_opcode (a : Feed Keypad) : (s.setKeypad a).opcode = s.opcode := rfl
@[simp] theorem State.setKeypad_context (a : Feed Keypad) : (s.setKeypad a).context = s.context := rfl
@[simp] theorem State.setKeypad_observers (a : Feed Keypad) : (s.setKeypad a).observers = s.observers := rfl
@[simp] theorem State.setKeypad_params (a : Feed Keypad) : (s.setKeypad a).params = s.params := rfl
@[simp] theorem State.setKeypad_schedule (a : Feed Keypad) : (s.setKeypad a).schedule = s.schedule := rfl
@[simp] theorem State.setKeypad_keypad (a : Feed Keypad) : (s.setKeypad a).keypad = a := rfl
@[simp] theorem State.setKeypad_polls (a : Feed Keypad) : (s.setKeypad a).polls = s.polls := rfl
@[simp] theorem State.setKeypad_random (a : Feed Keypad) : (s.setKeypad a).random = s.random := rfl
@[simp] theorem State.setKeypad_halts (a : Feed Keypad) : (s.setKeypad a).halts = s.halts := rfl
@[simp] theorem State.setKeypad_torn (a : Feed Keypad) : (s.setKeypad a).torn = s.torn := rfl
@[simp] theorem State.setKeypad_V (a : Feed Keypad) (r : Reg) : (s.setKeypad a).V r = s.V r := rfl

/-! ### State.setPolls -/

@[simp] theorem State.setPolls_v (a : Feed (Option Key)) : (s.setPolls a).v = s.v := rfl
@[simp] theorem State.setPolls_i (a : Feed (Option Key)) : (s.setPolls a).i = s.i := rfl
@[simp] theorem State.setPolls_pc (a : Feed (Option Key)) : (s.setPolls a).pc = s.pc := rfl
@[simp] theorem State.setPolls_stack (a : Feed (Option Key)) : (s.setPolls a).stack = s.stack := rfl
@[simp] theorem State.setPolls_dt (a : Feed (Option Key)) : (s.setPolls a).dt = s.dt := rfl
@[simp] theorem State.setPolls_st (a : Feed (Option Key)) : (s.setPolls a).st = s.st := rfl
@[simp] theorem State.setPolls_mem (a : Feed (Option Key)) : (s.setPolls a).mem = s.mem := rfl
@[simp] theorem State.setPolls_display (a : Feed (Option Key)) : (s.setPolls a).display = s.display := rfl
@[simp] theorem State.setPolls_engine (a : Feed (Option Key)) : (s.setPolls a).engine = s.engine := rfl
@[simp] theorem State.setPolls_opcode (a : Feed (Option Key)) : (s.setPolls a).opcode = s.opcode := rfl
@[simp] theorem State.setPolls_context (a : Feed (Option Key)) : (s.setPolls a).context = s.context := rfl
@[simp] theorem State.setPolls_observers (a : Feed (Option Key)) : (s.setPolls a).observers = s.observers := rfl
@[simp] theorem State.setPolls_params (a : Feed (Option Key)) : (s.setPolls a).params = s.params := rfl
@[simp] theorem State.setPolls_schedule (a : Feed (Option Key)) : (s.setPolls a).schedule = s.schedule := rfl
@[simp] theorem State.setPolls_keypad (a : Feed (Option Key)) : (s.setPolls a).keypad = s.keypad := rfl
@[simp] theorem State.setPolls_polls (a : Feed (Option Key)) : (s.setPolls a).polls = a := rfl
@[simp] theorem State.setPolls_random (a : Feed (Option Key)) : (s.setPolls a).random = s.random := rfl
@[simp] theorem State.setPolls_halts (a : Feed (Option Key)) : (s.setPolls a).halts = s.halts := rfl
@[simp] theorem State.setPolls_torn (a : Feed (Option Key)) : (s.setPolls a).torn = s.torn := rfl
@[simp] theorem State.setPolls_V (a : Feed (Option Key)) (r : Reg) : (s.setPolls a).V r = s.V r := rfl

/-! ### State.setRandom -/

@[simp] theorem State.setRandom_v (a : Feed Byte) : (s.setRandom a).v = s.v := rfl
@[simp] theorem State.setRandom_i (a : Feed Byte) : (s.setRandom a).i = s.i := rfl
@[simp] theorem State.setRandom_pc (a : Feed Byte) : (s.setRandom a).pc = s.pc := rfl
@[simp] theorem State.setRandom_stack (a : Feed Byte) : (s.setRandom a).stack = s.stack := rfl
@[simp] theorem State.setRandom_dt (a : Feed Byte) : (s.setRandom a).dt = s.dt := rfl
@[simp] theorem State.setRandom_st (a : Feed Byte) : (s.setRandom a).st = s.st := rfl
@[simp] theorem State.setRandom_mem (a : Feed Byte) : (s.setRandom a).mem = s.mem := rfl
@[simp] theorem State.setRandom_display (a : Feed Byte) : (s.setRandom a).display = s.display := rfl
@[simp] theorem State.setRandom_engine (a : Feed Byte) : (s.setRandom a).engine = s.engine := rfl
@[simp] theorem State.setRandom_opcode (a : Feed Byte) : (s.setRandom a).opcode = s.opcode := rfl
@[simp] theorem State.setRandom_context (a : Feed Byte) : (s.setRandom a).context = s.context := rfl
@[simp] theorem State.setRandom_observers (a : Feed Byte) : (s.setRandom a).observers = s.observers := rfl
@[simp] theorem State.setRandom_params (a : Feed Byte) : (s.setRandom a).params = s.params := rfl
@[simp] theorem State.setRandom_schedule (a : Feed Byte) : (s.setRandom a).schedule = s.schedule := rfl
@[simp] theorem State.setRandom_keypad (a : Feed Byte) : (s.setRandom a).keypad = s.keypad := rfl
@[simp] theorem State.setRandom_polls (a : Feed Byte) : (s.setRandom a).polls = s.polls := rfl
@[simp] theorem State.setRandom_random (a : Feed Byte) : (s.setRandom a).random = a := rfl
@[simp] theorem State.setRandom_halts (a : Feed Byte) : (s.setRandom a).halts = s.halts := rfl
@[simp] theorem State.setRandom_torn (a : Feed Byte) : (s.setRandom a).torn = s.torn := rfl
@[simp] theorem State.setRandom_V (a : Feed Byte) (r : Reg) : (s.setRandom a).V r = s.V r := rfl

/-! ### State.setHalts -/

@[simp] theorem State.setHalts_v (a : Feed Bool) : (s.setHalts a).v = s.v := rfl
@[simp] theorem State.setHalts_i (a : Feed Bool) : (s.setHalts a).i = s.i := rfl
@[simp] theorem State.setHalts_pc (a : Feed Bool) : (s.setHalts a).pc = s.pc := rfl
@[simp] theorem State.setHalts_stack (a : Feed Bool) : (s.setHalts a).stack = s.stack := rfl
@[simp] theorem State.setHalts_dt (a : Feed Bool) : (s.setHalts a).dt = s.dt := rfl
@[simp] theorem State.setHalts_st (a : Feed Bool) : (s.setHalts a).st = s.st := rfl
@[simp] theorem State.setHalts_mem (a : Feed Bool) : (s.setHalts a).mem = s.mem := rfl
@[simp] theorem State.setHalts_display (a : Feed Bool) : (s.setHalts a).display = s.display := rfl
@[simp] theorem State.setHalts_engine (a : Feed Bool) : (s.setHalts a).engine = s.engine := rfl
@[simp] theorem State.setHalts_opcode (a : Feed Bool) : (s.setHalts a).opcode = s.opcode := rfl
@[simp] theorem State.setHalts_context (a : Feed Bool) : (s.setHalts a).context = s.context := rfl
@[simp] theorem State.setHalts_observers (a : Feed Bool) : (s.setHalts a).observers = s.observers := rfl
@[simp] theorem State.setHalts_params (a : Feed Bool) : (s.setHalts a).params = s.params := rfl
@[simp] theorem State.setHalts_schedule (a : Feed Bool) : (s.setHalts a).schedule = s.schedule := rfl
@[simp] theorem State.setHalts_keypad (a : Feed Bool) : (s.setHalts a).keypad = s.keypad := rfl
@[simp] theorem State.setHalts_polls (a : Feed Bool) : (s.setHalts a).polls = s.polls := rfl
@[simp] theorem State.setHalts_random (a : Feed Bool) : (s.setHalts a).random = s.random := rfl
@[simp] theorem State.setHalts_halts (a : Feed Bool) : (s.setHalts a).halts = a := rfl
@[simp] theorem State.setHalts_torn (a : Feed Bool) : (s.setHalts a).torn = s.torn := rfl
@[simp] theorem State.setHalts_V (a : Feed Bool) (r : Reg) : (s.setHalts a).V r = s.V r := rfl

/-! ### State.setTorn -/

@[simp] theorem State.setTorn_v (a : Nat) : (s.setTorn a).v = s.v := rfl
@[simp] theorem State.setTorn_i (a : Nat) : (s.setTorn a).i = s.i := rfl
@[simp] theorem State.setTorn_pc (a : Nat) : (s.setTorn a).pc = s.pc := rfl
@[simp] theorem State.setTorn_stack (a : Nat) : (s.setTorn a).stack = s.stack := rfl
@[simp] theorem State.setTorn_dt (a : Nat) : (s.setTorn a).dt = s.dt := rfl
@[simp] theorem State.setTorn_st (a : Nat) : (s.setTorn a).st = s.st := rfl
@[simp] theorem State.setTorn_mem (a : Nat) : (s.setTorn a).mem = s.mem := rfl
@[simp] theorem State.setTorn_display (a : Nat) : (s.setTorn a).display = s.display := rfl
@[simp] theorem State.setTorn_engine (a : Nat) : (s.setTorn a).engine = s.engine := rfl
@[simp] theorem State.setTorn_opcode (a : Nat) : (s.setTorn a).opcode = s.opcode := rfl
@[simp] theorem State.setTorn_context (a : Nat) : (s.setTorn a).context = s.context := rfl
@[simp] theorem State.setTorn_observers (a : Nat) : (s.setTorn a).observers = s.observers := rfl
@[simp] theorem State.setTorn_params (a : Nat) : (s.setTorn a).params = s.params := rfl
@[simp] theorem State.setTorn_schedule (a : Nat) : (s.setTorn a).schedule = s.schedule := rfl
@[simp] theorem State.setTorn_keypad (a : Nat) : (s.setTorn a).keypad = s.keypad := rfl
@[simp] theorem State.setTorn_polls (a : Nat) : (s.setTorn a).polls = s.polls := rfl
@[simp] theorem State.setTorn_random (a : Nat) : (s.setTorn a).random = s.random := rfl
@[simp] theorem State.setTorn_halts (a : Nat) : (s.setTorn a).halts = s.halts := rfl
@[simp] theorem State.setTorn_torn (a : Nat) : (s.setTorn a).torn = a := rfl
@[simp] theorem State.setTorn_V (a : Nat) (r : Reg) : (s.setTorn a).V r = s.V r := rfl

/-! ### State.setRegs -/

@[simp] theorem State.setRegs_v (a : Vector Byte 16) : (s.setRegs a).v = a := rfl
@[simp] theorem State.setRegs_i (a : Vector Byte 16) : (s.setRegs a).i = s.i := rfl
@[simp] theorem State.setRegs_pc (a : Vector Byte 16) : (s.setRegs a).pc = s.pc := rfl
@[simp] theorem State.setRegs_stack (a : Vector Byte 16) : (s.setRegs a).stack = s.stack := rfl
@[simp] theorem State.setRegs_dt (a : Vector Byte 16) : (s.setRegs a).dt = s.dt := rfl
@[simp] theorem State.setRegs_st (a : Vector Byte 16) : (s.setRegs a).st = s.st := rfl
@[simp] theorem State.setRegs_mem (a : Vector Byte 16) : (s.setRegs a).mem = s.mem := rfl
@[simp] theorem State.setRegs_display (a : Vector Byte 16) : (s.setRegs a).display = s.display := rfl
@[simp] theorem State.setRegs_engine (a : Vector Byte 16) : (s.setRegs a).engine = s.engine := rfl
@[simp] theorem State.setRegs_opcode (a : Vector Byte 16) : (s.setRegs a).opcode = s.opcode := rfl
@[simp] theorem State.setRegs_context (a : Vector Byte 16) : (s.setRegs a).context = s.context := rfl
@[simp] theorem State.setRegs_observers (a : Vector Byte 16) : (s.setRegs a).observers = s.observers := rfl
@[simp] theorem State.setRegs_params (a : Vector Byte 16) : (s.setRegs a).params = s.params := rfl
@[simp] theorem State.setRegs_schedule (a : Vector Byte 16) : (s.setRegs a).schedule = s.schedule := rfl
@[simp] theorem State.setRegs_keypad (a : Vector Byte 16) : (s.setRegs a).keypad = s.keypad := rfl
@[simp] theorem State.setRegs_polls (a : Vector Byte 16) : (s.setRegs a).polls = s.polls := rfl
@[simp] theorem State.setRegs_random (a : Vector Byte 16) : (s.setRegs a).random = s.random := rfl
@[simp] theorem State.setRegs_halts (a : Vector Byte 16) : (s.setRegs a).halts = s.halts := rfl
@[simp] theorem State.setRegs_torn (a : Vector Byte 16) : (s.setRegs a).torn = s.torn := rfl

/-! ### State.setV -/

@[simp] theorem State.setV_i (r : Reg) (b : Byte) : (s.setV r b).i = s.i := rfl
@[simp] theorem State.setV_pc (r : Reg) (b : Byte) : (s.setV r b).pc = s.pc := rfl
@[simp] theorem State.setV_stack (r : Reg) (b : Byte) : (s.setV r b).stack = s.stack := rfl
@[simp] theorem State.setV_dt (r : Reg) (b : Byte) : (s.setV r b).dt = s.dt := rfl
@[simp] theorem State.setV_st (r : Reg) (b : Byte) : (s.setV r b).st = s.st := rfl
@[simp] theorem State.setV_mem (r : Reg) (b : Byte) : (s.setV r b).mem = s.mem := rfl
@[simp] theorem State.setV_display (r : Reg) (b : Byte) : (s.setV r b).display = s.display := rfl
@[simp] theorem State.setV_engine (r : Reg) (b : Byte) : (s.setV r b).engine = s.engine := rfl
@[simp] theorem State.setV_opcode (r : Reg) (b : Byte) : (s.setV r b).opcode = s.opcode := rfl
@[simp] theorem State.setV_context (r : Reg) (b : Byte) : (s.setV r b).context = s.context := rfl
@[simp] theorem State.setV_observers (r : Reg) (b : Byte) : (s.setV r b).observers = s.observers := rfl
@[simp] theorem State.setV_params (r : Reg) (b : Byte) : (s.setV r b).params = s.params := rfl
@[simp] theorem State.setV_schedule (r : Reg) (b : Byte) : (s.setV r b).schedule = s.schedule := rfl
@[simp] theorem State.setV_keypad (r : Reg) (b : Byte) : (s.setV r b).keypad = s.keypad := rfl
@[simp] theorem State.setV_polls (r : Reg) (b : Byte) : (s.setV r b).polls = s.polls := rfl
@[simp] theorem State.setV_random (r : Reg) (b : Byte) : (s.setV r b).random = s.random := rfl
@[simp] theorem State.setV_halts (r : Reg) (b : Byte) : (s.setV r b).halts = s.halts := rfl
@[simp] theorem State.setV_torn (r : Reg) (b : Byte) : (s.setV r b).torn = s.torn := rfl

/-- A register read after a register write (R20). -/
@[simp] theorem State.setV_V (r q : Reg) (b : Byte) : (s.setV r b).V q = if q = r then b else s.V q := by
  have e : (r.val = q.val) = (q = r) := by rw [Fin.ext_iff]; exact propext ⟨Eq.symm, Eq.symm⟩
  simp [State.setV, State.V, Vector.getElem_set, e]

/-- A register of a whole register file. -/
@[simp] theorem State.setRegs_V (f : Vector Byte 16) (r : Reg) : (s.setRegs f).V r = f[r.val] := rfl

/-- Two register files that read the same everywhere are the same. -/
theorem regs_ext {v w : Vector Byte 16} (h : ∀ r : Reg, v[r.val] = w[r.val]) : v = w :=
  Vector.ext fun i hi => h ⟨i, hi⟩

/-! ### Composite updates -/

@[simp] theorem State.raise_v (d : Diagnostic) : (s.raise d).v = s.v := rfl
@[simp] theorem State.raise_i (d : Diagnostic) : (s.raise d).i = s.i := rfl
@[simp] theorem State.raise_pc (d : Diagnostic) : (s.raise d).pc = s.pc := rfl
@[simp] theorem State.raise_stack (d : Diagnostic) : (s.raise d).stack = s.stack := rfl
@[simp] theorem State.raise_dt (d : Diagnostic) : (s.raise d).dt = s.dt := rfl
@[simp] theorem State.raise_st (d : Diagnostic) : (s.raise d).st = s.st := rfl
@[simp] theorem State.raise_mem (d : Diagnostic) : (s.raise d).mem = s.mem := rfl
@[simp] theorem State.raise_display (d : Diagnostic) : (s.raise d).display = s.display := rfl
@[simp] theorem State.raise_opcode (d : Diagnostic) : (s.raise d).opcode = s.opcode := rfl
@[simp] theorem State.raise_context (d : Diagnostic) : (s.raise d).context = s.context := rfl
@[simp] theorem State.raise_observers (d : Diagnostic) : (s.raise d).observers = s.observers := rfl
@[simp] theorem State.raise_params (d : Diagnostic) : (s.raise d).params = s.params := rfl
@[simp] theorem State.raise_schedule (d : Diagnostic) : (s.raise d).schedule = s.schedule := rfl
@[simp] theorem State.raise_keypad (d : Diagnostic) : (s.raise d).keypad = s.keypad := rfl
@[simp] theorem State.raise_polls (d : Diagnostic) : (s.raise d).polls = s.polls := rfl
@[simp] theorem State.raise_random (d : Diagnostic) : (s.raise d).random = s.random := rfl
@[simp] theorem State.raise_halts (d : Diagnostic) : (s.raise d).halts = s.halts := rfl
@[simp] theorem State.raise_torn (d : Diagnostic) : (s.raise d).torn = s.torn := rfl
@[simp] theorem State.raise_V (d : Diagnostic) (r : Reg) : (s.raise d).V r = s.V r := rfl
@[simp] theorem State.raise_engine (d : Diagnostic) : (s.raise d).engine = .halted (.fatal d) := rfl
@[simp] theorem State.push_v (w : Word) : (s.push w).v = s.v := rfl
@[simp] theorem State.push_i (w : Word) : (s.push w).i = s.i := rfl
@[simp] theorem State.push_pc (w : Word) : (s.push w).pc = s.pc := rfl
@[simp] theorem State.push_dt (w : Word) : (s.push w).dt = s.dt := rfl
@[simp] theorem State.push_st (w : Word) : (s.push w).st = s.st := rfl
@[simp] theorem State.push_mem (w : Word) : (s.push w).mem = s.mem := rfl
@[simp] theorem State.push_display (w : Word) : (s.push w).display = s.display := rfl
@[simp] theorem State.push_engine (w : Word) : (s.push w).engine = s.engine := rfl
@[simp] theorem State.push_opcode (w : Word) : (s.push w).opcode = s.opcode := rfl
@[simp] theorem State.push_context (w : Word) : (s.push w).context = s.context := rfl
@[simp] theorem State.push_observers (w : Word) : (s.push w).observers = s.observers := rfl
@[simp] theorem State.push_params (w : Word) : (s.push w).params = s.params := rfl
@[simp] theorem State.push_schedule (w : Word) : (s.push w).schedule = s.schedule := rfl
@[simp] theorem State.push_keypad (w : Word) : (s.push w).keypad = s.keypad := rfl
@[simp] theorem State.push_polls (w : Word) : (s.push w).polls = s.polls := rfl
@[simp] theorem State.push_random (w : Word) : (s.push w).random = s.random := rfl
@[simp] theorem State.push_halts (w : Word) : (s.push w).halts = s.halts := rfl
@[simp] theorem State.push_torn (w : Word) : (s.push w).torn = s.torn := rfl
@[simp] theorem State.push_V (w : Word) (r : Reg) : (s.push w).V r = s.V r := rfl
@[simp] theorem State.push_stack (w : Word) : (s.push w).stack = w :: s.stack := rfl
@[simp] theorem State.countTorn_v  : (s.countTorn).v = s.v := rfl
@[simp] theorem State.countTorn_i  : (s.countTorn).i = s.i := rfl
@[simp] theorem State.countTorn_pc  : (s.countTorn).pc = s.pc := rfl
@[simp] theorem State.countTorn_stack  : (s.countTorn).stack = s.stack := rfl
@[simp] theorem State.countTorn_dt  : (s.countTorn).dt = s.dt := rfl
@[simp] theorem State.countTorn_st  : (s.countTorn).st = s.st := rfl
@[simp] theorem State.countTorn_mem  : (s.countTorn).mem = s.mem := rfl
@[simp] theorem State.countTorn_display  : (s.countTorn).display = s.display := rfl
@[simp] theorem State.countTorn_engine  : (s.countTorn).engine = s.engine := rfl
@[simp] theorem State.countTorn_opcode  : (s.countTorn).opcode = s.opcode := rfl
@[simp] theorem State.countTorn_context  : (s.countTorn).context = s.context := rfl
@[simp] theorem State.countTorn_observers  : (s.countTorn).observers = s.observers := rfl
@[simp] theorem State.countTorn_params  : (s.countTorn).params = s.params := rfl
@[simp] theorem State.countTorn_schedule  : (s.countTorn).schedule = s.schedule := rfl
@[simp] theorem State.countTorn_keypad  : (s.countTorn).keypad = s.keypad := rfl
@[simp] theorem State.countTorn_polls  : (s.countTorn).polls = s.polls := rfl
@[simp] theorem State.countTorn_random  : (s.countTorn).random = s.random := rfl
@[simp] theorem State.countTorn_halts  : (s.countTorn).halts = s.halts := rfl
@[simp] theorem State.countTorn_V  (r : Reg) : (s.countTorn).V r = s.V r := rfl
@[simp] theorem State.countTorn_torn : s.countTorn.torn = s.torn + 1 := rfl
@[simp] theorem State.delayTick_v  : (s.delayTick).v = s.v := rfl
@[simp] theorem State.delayTick_i  : (s.delayTick).i = s.i := rfl
@[simp] theorem State.delayTick_pc  : (s.delayTick).pc = s.pc := rfl
@[simp] theorem State.delayTick_stack  : (s.delayTick).stack = s.stack := rfl
@[simp] theorem State.delayTick_st  : (s.delayTick).st = s.st := rfl
@[simp] theorem State.delayTick_mem  : (s.delayTick).mem = s.mem := rfl
@[simp] theorem State.delayTick_display  : (s.delayTick).display = s.display := rfl
@[simp] theorem State.delayTick_engine  : (s.delayTick).engine = s.engine := rfl
@[simp] theorem State.delayTick_opcode  : (s.delayTick).opcode = s.opcode := rfl
@[simp] theorem State.delayTick_context  : (s.delayTick).context = s.context := rfl
@[simp] theorem State.delayTick_observers  : (s.delayTick).observers = s.observers := rfl
@[simp] theorem State.delayTick_params  : (s.delayTick).params = s.params := rfl
@[simp] theorem State.delayTick_schedule  : (s.delayTick).schedule = s.schedule := rfl
@[simp] theorem State.delayTick_keypad  : (s.delayTick).keypad = s.keypad := rfl
@[simp] theorem State.delayTick_polls  : (s.delayTick).polls = s.polls := rfl
@[simp] theorem State.delayTick_random  : (s.delayTick).random = s.random := rfl
@[simp] theorem State.delayTick_halts  : (s.delayTick).halts = s.halts := rfl
@[simp] theorem State.delayTick_torn  : (s.delayTick).torn = s.torn := rfl
@[simp] theorem State.delayTick_V  (r : Reg) : (s.delayTick).V r = s.V r := rfl
@[simp] theorem State.delayTick_dt : s.delayTick.dt = countDown s.dt := rfl
@[simp] theorem State.soundTick_v  : (s.soundTick).v = s.v := rfl
@[simp] theorem State.soundTick_i  : (s.soundTick).i = s.i := rfl
@[simp] theorem State.soundTick_pc  : (s.soundTick).pc = s.pc := rfl
@[simp] theorem State.soundTick_stack  : (s.soundTick).stack = s.stack := rfl
@[simp] theorem State.soundTick_dt  : (s.soundTick).dt = s.dt := rfl
@[simp] theorem State.soundTick_mem  : (s.soundTick).mem = s.mem := rfl
@[simp] theorem State.soundTick_display  : (s.soundTick).display = s.display := rfl
@[simp] theorem State.soundTick_engine  : (s.soundTick).engine = s.engine := rfl
@[simp] theorem State.soundTick_opcode  : (s.soundTick).opcode = s.opcode := rfl
@[simp] theorem State.soundTick_context  : (s.soundTick).context = s.context := rfl
@[simp] theorem State.soundTick_observers  : (s.soundTick).observers = s.observers := rfl
@[simp] theorem State.soundTick_params  : (s.soundTick).params = s.params := rfl
@[simp] theorem State.soundTick_schedule  : (s.soundTick).schedule = s.schedule := rfl
@[simp] theorem State.soundTick_keypad  : (s.soundTick).keypad = s.keypad := rfl
@[simp] theorem State.soundTick_polls  : (s.soundTick).polls = s.polls := rfl
@[simp] theorem State.soundTick_random  : (s.soundTick).random = s.random := rfl
@[simp] theorem State.soundTick_halts  : (s.soundTick).halts = s.halts := rfl
@[simp] theorem State.soundTick_torn  : (s.soundTick).torn = s.torn := rfl
@[simp] theorem State.soundTick_V  (r : Reg) : (s.soundTick).V r = s.V r := rfl
@[simp] theorem State.soundTick_st : s.soundTick.st = countDown s.st := rfl
@[simp] theorem State.afterKeyQuery_v  : (s.afterKeyQuery).v = s.v := rfl
@[simp] theorem State.afterKeyQuery_i  : (s.afterKeyQuery).i = s.i := rfl
@[simp] theorem State.afterKeyQuery_pc  : (s.afterKeyQuery).pc = s.pc := rfl
@[simp] theorem State.afterKeyQuery_stack  : (s.afterKeyQuery).stack = s.stack := rfl
@[simp] theorem State.afterKeyQuery_dt  : (s.afterKeyQuery).dt = s.dt := rfl
@[simp] theorem State.afterKeyQuery_st  : (s.afterKeyQuery).st = s.st := rfl
@[simp] theorem State.afterKeyQuery_mem  : (s.afterKeyQuery).mem = s.mem := rfl
@[simp] theorem State.afterKeyQuery_display  : (s.afterKeyQuery).display = s.display := rfl
@[simp] theorem State.afterKeyQuery_engine  : (s.afterKeyQuery).engine = s.engine := rfl
@[simp] theorem State.afterKeyQuery_opcode  : (s.afterKeyQuery).opcode = s.opcode := rfl
@[simp] theorem State.afterKeyQuery_context  : (s.afterKeyQuery).context = s.context := rfl
@[simp] theorem State.afterKeyQuery_observers  : (s.afterKeyQuery).observers = s.observers := rfl
@[simp] theorem State.afterKeyQuery_params  : (s.afterKeyQuery).params = s.params := rfl
@[simp] theorem State.afterKeyQuery_schedule  : (s.afterKeyQuery).schedule = s.schedule := rfl
@[simp] theorem State.afterKeyQuery_polls  : (s.afterKeyQuery).polls = s.polls := rfl
@[simp] theorem State.afterKeyQuery_random  : (s.afterKeyQuery).random = s.random := rfl
@[simp] theorem State.afterKeyQuery_halts  : (s.afterKeyQuery).halts = s.halts := rfl
@[simp] theorem State.afterKeyQuery_torn  : (s.afterKeyQuery).torn = s.torn := rfl
@[simp] theorem State.afterKeyQuery_V  (r : Reg) : (s.afterKeyQuery).V r = s.V r := rfl
@[simp] theorem State.afterKeyQuery_keypad : s.afterKeyQuery.keypad = s.keypad.advance := rfl
@[simp] theorem State.afterPoll_v  : (s.afterPoll).v = s.v := rfl
@[simp] theorem State.afterPoll_i  : (s.afterPoll).i = s.i := rfl
@[simp] theorem State.afterPoll_pc  : (s.afterPoll).pc = s.pc := rfl
@[simp] theorem State.afterPoll_stack  : (s.afterPoll).stack = s.stack := rfl
@[simp] theorem State.afterPoll_dt  : (s.afterPoll).dt = s.dt := rfl
@[simp] theorem State.afterPoll_st  : (s.afterPoll).st = s.st := rfl
@[simp] theorem State.afterPoll_mem  : (s.afterPoll).mem = s.mem := rfl
@[simp] theorem State.afterPoll_display  : (s.afterPoll).display = s.display := rfl
@[simp] theorem State.afterPoll_engine  : (s.afterPoll).engine = s.engine := rfl
@[simp] theorem State.afterPoll_opcode  : (s.afterPoll).opcode = s.opcode := rfl
@[simp] theorem State.afterPoll_context  : (s.afterPoll).context = s.context := rfl
@[simp] theorem State.afterPoll_observers  : (s.afterPoll).observers = s.observers := rfl
@[simp] theorem State.afterPoll_params  : (s.afterPoll).params = s.params := rfl
@[simp] theorem State.afterPoll_schedule  : (s.afterPoll).schedule = s.schedule := rfl
@[simp] theorem State.afterPoll_keypad  : (s.afterPoll).keypad = s.keypad := rfl
@[simp] theorem State.afterPoll_random  : (s.afterPoll).random = s.random := rfl
@[simp] theorem State.afterPoll_halts  : (s.afterPoll).halts = s.halts := rfl
@[simp] theorem State.afterPoll_torn  : (s.afterPoll).torn = s.torn := rfl
@[simp] theorem State.afterPoll_V  (r : Reg) : (s.afterPoll).V r = s.V r := rfl
@[simp] theorem State.afterPoll_polls : s.afterPoll.polls = s.polls.advance := rfl
@[simp] theorem State.afterRandom_v  : (s.afterRandom).v = s.v := rfl
@[simp] theorem State.afterRandom_i  : (s.afterRandom).i = s.i := rfl
@[simp] theorem State.afterRandom_pc  : (s.afterRandom).pc = s.pc := rfl
@[simp] theorem State.afterRandom_stack  : (s.afterRandom).stack = s.stack := rfl
@[simp] theorem State.afterRandom_dt  : (s.afterRandom).dt = s.dt := rfl
@[simp] theorem State.afterRandom_st  : (s.afterRandom).st = s.st := rfl
@[simp] theorem State.afterRandom_mem  : (s.afterRandom).mem = s.mem := rfl
@[simp] theorem State.afterRandom_display  : (s.afterRandom).display = s.display := rfl
@[simp] theorem State.afterRandom_engine  : (s.afterRandom).engine = s.engine := rfl
@[simp] theorem State.afterRandom_opcode  : (s.afterRandom).opcode = s.opcode := rfl
@[simp] theorem State.afterRandom_context  : (s.afterRandom).context = s.context := rfl
@[simp] theorem State.afterRandom_observers  : (s.afterRandom).observers = s.observers := rfl
@[simp] theorem State.afterRandom_params  : (s.afterRandom).params = s.params := rfl
@[simp] theorem State.afterRandom_schedule  : (s.afterRandom).schedule = s.schedule := rfl
@[simp] theorem State.afterRandom_keypad  : (s.afterRandom).keypad = s.keypad := rfl
@[simp] theorem State.afterRandom_polls  : (s.afterRandom).polls = s.polls := rfl
@[simp] theorem State.afterRandom_halts  : (s.afterRandom).halts = s.halts := rfl
@[simp] theorem State.afterRandom_torn  : (s.afterRandom).torn = s.torn := rfl
@[simp] theorem State.afterRandom_V  (r : Reg) : (s.afterRandom).V r = s.V r := rfl
@[simp] theorem State.afterRandom_random : s.afterRandom.random = s.random.advance := rfl

/-- A conditional skip moves only PC (R138). -/
theorem State.skipIf_eq (c : Bool) : s.skipIf c = s.setPc (if c then s.pc + 2 else s.pc) := by
  cases c <;> rfl

/-- A countdown register after one tick, as a number: one less, floor at zero (R253, R254). -/
theorem countDown_toNat (b : Byte) : (countDown b).toNat = b.toNat - 1 := by
  unfold countDown
  split
  · next h => subst h; rfl
  · next h =>
    have hb : 0 < b.toNat := Nat.pos_of_ne_zero fun h0 => h (BitVec.eq_of_toNat_eq (by simpa using h0))
    have := b.isLt
    rw [BitVec.toNat_sub]
    simp
    omega

end Sys2Proof.Machine
end

