-- ==== Sys2Proof/Laws/Ops.lean ====
section
/-! SUPPORT. One specification lemma per shared operation: everything it can do, said once, for proofs to cite instead of
unfolding it. -/

namespace Sys2Proof.Machine

open Sys2Proof.Config

variable (s : State)

/-! ## Results and flags -/

/-- A result and then the flag: VF ends as the flag, x as the result unless it is VF (R163). -/
@[simp] theorem State.setResultThenFlag_V (x q : Reg) (b f : Byte) :
    (s.setResultThenFlag x b f).V q = if q = VF then f else if q = x then b else s.V q := by
  simp [State.setResultThenFlag, State.setFlag]

@[simp] theorem State.setResultThenFlag_i (x : Reg) (b f : Byte) : (s.setResultThenFlag x b f).i = s.i := rfl
@[simp] theorem State.setResultThenFlag_pc (x : Reg) (b f : Byte) : (s.setResultThenFlag x b f).pc = s.pc := rfl
@[simp] theorem State.setResultThenFlag_stack (x : Reg) (b f : Byte) : (s.setResultThenFlag x b f).stack = s.stack := rfl
@[simp] theorem State.setResultThenFlag_dt (x : Reg) (b f : Byte) : (s.setResultThenFlag x b f).dt = s.dt := rfl
@[simp] theorem State.setResultThenFlag_st (x : Reg) (b f : Byte) : (s.setResultThenFlag x b f).st = s.st := rfl
@[simp] theorem State.setResultThenFlag_mem (x : Reg) (b f : Byte) : (s.setResultThenFlag x b f).mem = s.mem := rfl
@[simp] theorem State.setResultThenFlag_display (x : Reg) (b f : Byte) : (s.setResultThenFlag x b f).display = s.display := rfl
@[simp] theorem State.setResultThenFlag_engine (x : Reg) (b f : Byte) : (s.setResultThenFlag x b f).engine = s.engine := rfl
@[simp] theorem State.setResultThenFlag_opcode (x : Reg) (b f : Byte) : (s.setResultThenFlag x b f).opcode = s.opcode := rfl
@[simp] theorem State.setResultThenFlag_context (x : Reg) (b f : Byte) : (s.setResultThenFlag x b f).context = s.context := rfl
@[simp] theorem State.setResultThenFlag_observers (x : Reg) (b f : Byte) : (s.setResultThenFlag x b f).observers = s.observers := rfl
@[simp] theorem State.setResultThenFlag_params (x : Reg) (b f : Byte) : (s.setResultThenFlag x b f).params = s.params := rfl
@[simp] theorem State.setResultThenFlag_schedule (x : Reg) (b f : Byte) : (s.setResultThenFlag x b f).schedule = s.schedule := rfl
@[simp] theorem State.setResultThenFlag_keypad (x : Reg) (b f : Byte) : (s.setResultThenFlag x b f).keypad = s.keypad := rfl
@[simp] theorem State.setResultThenFlag_polls (x : Reg) (b f : Byte) : (s.setResultThenFlag x b f).polls = s.polls := rfl
@[simp] theorem State.setResultThenFlag_random (x : Reg) (b f : Byte) : (s.setResultThenFlag x b f).random = s.random := rfl
@[simp] theorem State.setResultThenFlag_halts (x : Reg) (b f : Byte) : (s.setResultThenFlag x b f).halts = s.halts := rfl
@[simp] theorem State.setResultThenFlag_torn (x : Reg) (b f : Byte) : (s.setResultThenFlag x b f).torn = s.torn := rfl

/-- A shift of a register other than VF: the result there, the bit shifted out in VF (R159, R160). -/
theorem State.shift_V_of_ne (x q : Reg) (op out : Byte → Byte) (h : x ≠ VF) :
    (s.shift x op out).V q = if q = x then op (s.V x) else if q = VF then out (s.V x) else s.V q := by
  simp [State.shift, State.setFlag, h]

/-- A shift of VF itself, by SHIFT_VF_ALIAS (R159, R160). -/
theorem State.shift_V_of_eq (q : Reg) (op out : Byte → Byte) :
    (s.shift VF op out).V q = if q = VF then
        (match s.params.shiftVf with
          | .resultLast => op (s.V VF)
          | .reread => op (out (s.V VF))
          | .flagLast => out (s.V VF))
      else s.V q := by
  cases e : s.params.shiftVf <;> simp [State.shift, State.setFlag, e]

@[simp] theorem State.shift_i (x : Reg) (op out : Byte → Byte) : (s.shift x op out).i = s.i := by
  unfold State.shift; split <;> rfl
@[simp] theorem State.shift_pc (x : Reg) (op out : Byte → Byte) : (s.shift x op out).pc = s.pc := by
  unfold State.shift; split <;> rfl
@[simp] theorem State.shift_stack (x : Reg) (op out : Byte → Byte) : (s.shift x op out).stack = s.stack := by
  unfold State.shift; split <;> rfl
@[simp] theorem State.shift_dt (x : Reg) (op out : Byte → Byte) : (s.shift x op out).dt = s.dt := by
  unfold State.shift; split <;> rfl
@[simp] theorem State.shift_st (x : Reg) (op out : Byte → Byte) : (s.shift x op out).st = s.st := by
  unfold State.shift; split <;> rfl
@[simp] theorem State.shift_mem (x : Reg) (op out : Byte → Byte) : (s.shift x op out).mem = s.mem := by
  unfold State.shift; split <;> rfl
@[simp] theorem State.shift_display (x : Reg) (op out : Byte → Byte) : (s.shift x op out).display = s.display := by
  unfold State.shift; split <;> rfl
@[simp] theorem State.shift_engine (x : Reg) (op out : Byte → Byte) : (s.shift x op out).engine = s.engine := by
  unfold State.shift; split <;> rfl
@[simp] theorem State.shift_opcode (x : Reg) (op out : Byte → Byte) : (s.shift x op out).opcode = s.opcode := by
  unfold State.shift; split <;> rfl
@[simp] theorem State.shift_context (x : Reg) (op out : Byte → Byte) : (s.shift x op out).context = s.context := by
  unfold State.shift; split <;> rfl
@[simp] theorem State.shift_observers (x : Reg) (op out : Byte → Byte) : (s.shift x op out).observers = s.observers := by
  unfold State.shift; split <;> rfl
@[simp] theorem State.shift_params (x : Reg) (op out : Byte → Byte) : (s.shift x op out).params = s.params := by
  unfold State.shift; split <;> rfl
@[simp] theorem State.shift_schedule (x : Reg) (op out : Byte → Byte) : (s.shift x op out).schedule = s.schedule := by
  unfold State.shift; split <;> rfl
@[simp] theorem State.shift_keypad (x : Reg) (op out : Byte → Byte) : (s.shift x op out).keypad = s.keypad := by
  unfold State.shift; split <;> rfl
@[simp] theorem State.shift_polls (x : Reg) (op out : Byte → Byte) : (s.shift x op out).polls = s.polls := by
  unfold State.shift; split <;> rfl
@[simp] theorem State.shift_random (x : Reg) (op out : Byte → Byte) : (s.shift x op out).random = s.random := by
  unfold State.shift; split <;> rfl
@[simp] theorem State.shift_halts (x : Reg) (op out : Byte → Byte) : (s.shift x op out).halts = s.halts := by
  unfold State.shift; split <;> rfl
@[simp] theorem State.shift_torn (x : Reg) (op out : Byte → Byte) : (s.shift x op out).torn = s.torn := by
  unfold State.shift; split <;> rfl

/-! ## Data accesses -/

theorem State.dataOutOfRange_none {n : Nat} (h : n = 0 ∨ s.i.toNat + n ≤ memSize) : s.dataOutOfRange n = none := by
  rw [State.dataOutOfRange, firstOutOfRange_eq, if_pos h]

theorem State.dataOutOfRange_some {n : Nat} (h : ¬(n = 0 ∨ s.i.toNat + n ≤ memSize)) :
    s.dataOutOfRange n = some (max s.i.toNat memSize) := by
  rw [State.dataOutOfRange, firstOutOfRange_eq, if_neg h]

/-- A store whose bytes are all in memory (R183, R185). -/
theorem State.storeAtI_inBounds (bs : List Byte) (h : bs.length = 0 ∨ s.i.toNat + bs.length ≤ memSize) :
    s.storeAtI bs = s.setMem (Memory.putAll s.mem s.i.toNat bs) := by
  rw [State.storeAtI, s.dataOutOfRange_none h]

/-- A store that runs out of memory halts at the first byte out of bounds; what it stored in bounds is left open (R249). -/
theorem State.storeAtI_outOfBounds (bs : List Byte) (h : ¬(bs.length = 0 ∨ s.i.toNat + bs.length ≤ memSize)) :
    s.storeAtI bs = ((s.setMem (Memory.putSome (fun k => decide (s.ea k < memSize) && s.keepsNew k) s.mem s.i.toNat 0 bs)).countTorn).raise
      (.memOob .write (max s.i.toNat memSize) s.instrAddr) := by
  rw [State.storeAtI, s.dataOutOfRange_some h]
  rfl

/-- A load whose bytes are all in memory (R184). -/
theorem State.loadAtI_inBounds (x : Reg) (h : s.i.toNat + (x.val + 1) ≤ memSize) :
    s.loadAtI x = s.setRegs (s.loadedRegs x fun _ => true) := by
  rw [State.loadAtI, s.dataOutOfRange_none (.inr h)]

/-- A load that runs out of memory halts at the first byte out of bounds; which registers took their byte is left open (R249). -/
theorem State.loadAtI_outOfBounds (x : Reg) (h : ¬ s.i.toNat + (x.val + 1) ≤ memSize) :
    s.loadAtI x = ((s.setRegs (s.loadedRegs x fun k => decide (s.ea k < memSize) && s.keepsNew k)).countTorn).raise
      (.memOob .read (max s.i.toNat memSize) s.instrAddr) := by
  rw [State.loadAtI, s.dataOutOfRange_some (by omega)]
  rfl

/-- A register of the loaded register file. -/
theorem State.loadedRegs_get (x r : Reg) (take : Nat → Bool) :
    (s.loadedRegs x take)[r.val] = if r ≤ x ∧ take r.val = true then Memory.get s.mem (s.ea r.val) else s.V r := by
  simp [State.loadedRegs]

/-- STRD moves x + 1 bytes. -/
@[simp] theorem State.firstRegs_length (x : Reg) : (s.firstRegs x).length = x.val + 1 := by
  have := x.isLt
  simp [State.firstRegs]

/-- The k-th of them is V[k]. -/
theorem State.firstRegs_getD (x r : Reg) (h : r ≤ x) : (s.firstRegs x).getD r.val 0 = s.V r := by
  have hr := r.isLt
  have hx := x.isLt
  have h' : r.val ≤ x.val := h
  simp only [State.firstRegs, List.getD_eq_getElem?_getD, List.getElem?_map]
  rw [List.getElem?_take, if_pos (by omega), List.getElem?_eq_getElem (by simp)]
  simp

/-! ## Keys -/

/-- The key operand is there exactly for values up to 15 (R246). -/
theorem keyOperand_some {b : Byte} (h : b.toNat < 16) : keyOperand b = some ⟨b.toNat, h⟩ := by simp [keyOperand, h]

theorem keyOperand_none {b : Byte} (h : ¬ b.toNat < 16) : keyOperand b = none := by simp [keyOperand, h]

/-- A key test on a key: one query, then a skip when the answer is the one wanted (R220, R221). -/
theorem State.keyTest_inRange (x : Reg) (op : KeyTest) (want : Bool) (h : (s.V x).toNat < 16) :
    s.keyTest x op want = s.afterKeyQuery.skipIf (s.keyPressed ⟨(s.V x).toNat, h⟩ == want) := by
  rw [State.keyTest, keyOperand_some h]

/-- A key test on a number above 15 halts before any query (R246). -/
theorem State.keyTest_outOfRange (x : Reg) (op : KeyTest) (want : Bool) (h : ¬ (s.V x).toNat < 16) :
    s.keyTest x op want = s.raise (.keyRange op s.instrAddr (s.V x)) := by
  rw [State.keyTest, keyOperand_none h]

/-! ## DRAW -/

/-- DRAW with its row bytes in memory (R201). -/
theorem execDraw_inBounds (x y : Reg) (n : Rows) (h : n.val = 0 ∨ s.i.toNat + n.val ≤ memSize) :
    execDraw x y n s = .next ((s.setDisplay (s.drawn x y n.val).1).setFlag (flag (s.drawn x y n.val).2)) := by
  rw [execDraw, s.dataOutOfRange_none h]

/-- DRAW that runs out of memory halts at the first row byte out of bounds; what it drew is left open (R249). -/
theorem execDraw_outOfBounds (x y : Reg) (n : Rows) (h : ¬(n.val = 0 ∨ s.i.toNat + n.val ≤ memSize)) :
    execDraw x y n s = .next
      ((((s.setDisplay (Display.mix s.keepsNew s.display (s.drawn x y (s.rowsInRange n.val)).1)).setFlag
        (s.tornFlag (s.drawn x y (s.rowsInRange n.val)).2)).countTorn).raise
          (.memOob .read (max s.i.toNat memSize) s.instrAddr)) := by
  rw [execDraw, s.dataOutOfRange_some h]
  simp only [State.raiseMem, State.instrAddr, State.setFlag, State.countTorn_pc, State.setV_pc, State.setDisplay_pc]

/-- One step of DRAW's inner loop, read at any pixel (R201). -/
theorem drawPixel_get (g : Canvas) (px py : Nat) (bit : Bool) (x : Fin 64) (y : Fin 32) :
    Display.get (drawPixel g px py bit).1 x y
      = if x.val = px ∧ y.val = py then (Display.get g.1 x y ^^ bit) else Display.get g.1 x y := by
  have := x.isLt
  have := y.isLt
  unfold drawPixel
  split
  · next h =>
    simp only [Display.get_set]
    by_cases c : x.val = px ∧ y.val = py
    · obtain ⟨rfl, rfl⟩ := c
      simp
    · rw [if_neg c, if_neg]
      intro e
      exact c ⟨by rw [e.1], by rw [e.2]⟩
  · next h => rw [if_neg (by omega)]

/-! ## The end of a cycle -/

@[simp] theorem State.notify_i (w : Word) : (s.notify w).i = s.i := by
  unfold State.notify; simp only []; split <;> rfl
@[simp] theorem State.finishCycle_i (w : Word) : (s.finishCycle w).i = s.i := by
  unfold State.finishCycle; split <;> simp
@[simp] theorem State.notify_pc (w : Word) : (s.notify w).pc = s.pc := by
  unfold State.notify; simp only []; split <;> rfl
@[simp] theorem State.finishCycle_pc (w : Word) : (s.finishCycle w).pc = s.pc := by
  unfold State.finishCycle; split <;> simp
@[simp] theorem State.notify_stack (w : Word) : (s.notify w).stack = s.stack := by
  unfold State.notify; simp only []; split <;> rfl
@[simp] theorem State.finishCycle_stack (w : Word) : (s.finishCycle w).stack = s.stack := by
  unfold State.finishCycle; split <;> simp
@[simp] theorem State.notify_dt (w : Word) : (s.notify w).dt = s.dt := by
  unfold State.notify; simp only []; split <;> rfl
@[simp] theorem State.finishCycle_dt (w : Word) : (s.finishCycle w).dt = s.dt := by
  unfold State.finishCycle; split <;> simp
@[simp] theorem State.notify_st (w : Word) : (s.notify w).st = s.st := by
  unfold State.notify; simp only []; split <;> rfl
@[simp] theorem State.finishCycle_st (w : Word) : (s.finishCycle w).st = s.st := by
  unfold State.finishCycle; split <;> simp
@[simp] theorem State.notify_mem (w : Word) : (s.notify w).mem = s.mem := by
  unfold State.notify; simp only []; split <;> rfl
@[simp] theorem State.finishCycle_mem (w : Word) : (s.finishCycle w).mem = s.mem := by
  unfold State.finishCycle; split <;> simp
@[simp] theorem State.notify_display (w : Word) : (s.notify w).display = s.display := by
  unfold State.notify; simp only []; split <;> rfl
@[simp] theorem State.finishCycle_display (w : Word) : (s.finishCycle w).display = s.display := by
  unfold State.finishCycle; split <;> simp
@[simp] theorem State.notify_opcode (w : Word) : (s.notify w).opcode = s.opcode := by
  unfold State.notify; simp only []; split <;> rfl
@[simp] theorem State.finishCycle_opcode (w : Word) : (s.finishCycle w).opcode = s.opcode := by
  unfold State.finishCycle; split <;> simp
@[simp] theorem State.notify_params (w : Word) : (s.notify w).params = s.params := by
  unfold State.notify; simp only []; split <;> rfl
@[simp] theorem State.finishCycle_params (w : Word) : (s.finishCycle w).params = s.params := by
  unfold State.finishCycle; split <;> simp
@[simp] theorem State.notify_schedule (w : Word) : (s.notify w).schedule = s.schedule := by
  unfold State.notify; simp only []; split <;> rfl
@[simp] theorem State.finishCycle_schedule (w : Word) : (s.finishCycle w).schedule = s.schedule := by
  unfold State.finishCycle; split <;> simp
@[simp] theorem State.notify_keypad (w : Word) : (s.notify w).keypad = s.keypad := by
  unfold State.notify; simp only []; split <;> rfl
@[simp] theorem State.finishCycle_keypad (w : Word) : (s.finishCycle w).keypad = s.keypad := by
  unfold State.finishCycle; split <;> simp
@[simp] theorem State.notify_polls (w : Word) : (s.notify w).polls = s.polls := by
  unfold State.notify; simp only []; split <;> rfl
@[simp] theorem State.finishCycle_polls (w : Word) : (s.finishCycle w).polls = s.polls := by
  unfold State.finishCycle; split <;> simp
@[simp] theorem State.notify_random (w : Word) : (s.notify w).random = s.random := by
  unfold State.notify; simp only []; split <;> rfl
@[simp] theorem State.finishCycle_random (w : Word) : (s.finishCycle w).random = s.random := by
  unfold State.finishCycle; split <;> simp
@[simp] theorem State.notify_torn (w : Word) : (s.notify w).torn = s.torn := by
  unfold State.notify; simp only []; split <;> rfl
@[simp] theorem State.finishCycle_torn (w : Word) : (s.finishCycle w).torn = s.torn := by
  unfold State.finishCycle; split <;> simp
@[simp] theorem State.notify_v (w : Word) : (s.notify w).v = s.v := by
  unfold State.notify; simp only []; split <;> rfl
@[simp] theorem State.finishCycle_v (w : Word) : (s.finishCycle w).v = s.v := by
  unfold State.finishCycle; split <;> simp

@[simp] theorem State.notify_V (w : Word) (r : Reg) : (s.notify w).V r = s.V r := by
  unfold State.V; rw [State.notify_v]

@[simp] theorem State.finishCycle_V (w : Word) (r : Reg) : (s.finishCycle w).V r = s.V r := by
  unfold State.V; rw [State.finishCycle_v]

/-- The snapshot is kept, every observer is called once with it, and one answer is drawn per observer (R109, R110). -/
@[simp] theorem State.notify_context (w : Word) : (s.notify w).context = some (CycleContext.of s w) := by
  unfold State.notify; simp only []; split <;> rfl

@[simp] theorem State.notify_observers (w : Word) :
    (s.notify w).observers = s.observers.map (Observer.onCycle (CycleContext.of s w)) := by
  unfold State.notify; simp only []; split <;> rfl

@[simp] theorem State.notify_halts (w : Word) : (s.notify w).halts = (pollHalts s.observers.length s.halts).2 := by
  unfold State.notify; simp only []; split <;> rfl

@[simp] theorem State.notify_engine (w : Word) :
    (s.notify w).engine = if (pollHalts s.observers.length s.halts).1 then .halted .observer else s.engine := by
  unfold State.notify; simp only []; split <;> rfl

/-! ## Fetch, cycle and step -/

theorem State.fetchOutOfRange_none (h : s.pc.toNat + 1 < memSize) : s.fetchOutOfRange = none := by
  rw [State.fetchOutOfRange, firstOutOfRange_eq, if_pos (.inr (by omega))]

theorem State.fetchOutOfRange_some (h : ¬ s.pc.toNat + 1 < memSize) : s.fetchOutOfRange = some (max s.pc.toNat memSize) := by
  rw [State.fetchOutOfRange, firstOutOfRange_eq, if_neg (by omega)]

/-- Everything one execution cycle can answer with a next state: a fatal fetch, an Unsupported word, or a handler's answer with the
end of its cycle (R115). -/
theorem execCycle_next {s t : State} (h : execCycle s = .next t) :
    (¬ s.pc.toNat + 1 < memSize ∧ t = s.raise (.memOob .fetch (max s.pc.toNat memSize) s.pc)) ∨
    (s.pc.toNat + 1 < memSize ∧ decode s.params.looseDecode s.opcodeAtPc = none ∧
      t = s.advance.raise (.unsupported s.opcodeAtPc s.advance.instrAddr)) ∨
    (s.pc.toNat + 1 < memSize ∧ ∃ i u, decode s.params.looseDecode s.opcodeAtPc = some i ∧ exec i s.advance = .next u ∧
      t = u.finishCycle s.opcodeAtPc) := by
  unfold execCycle at h
  by_cases hb : s.pc.toNat + 1 < memSize
  · rw [s.fetchOutOfRange_none hb] at h
    have hp : s.advance.params = s.params := rfl
    unfold dispatch at h
    rw [hp] at h
    cases hd : decode s.params.looseDecode s.opcodeAtPc with
    | none =>
      rw [hd] at h
      refine .inr (.inl ⟨hb, rfl, ?_⟩)
      injection h with h
      exact h.symm
    | some i =>
      rw [hd] at h
      cases he : exec i s.advance with
      | next u =>
        simp only [he] at h
        injection h with h
        exact .inr (.inr ⟨hb, i, u, rfl, he, h.symm⟩)
      | fault f => simp [he, completeCycle] at h
      | refused r => simp [he, completeCycle] at h
  · rw [s.fetchOutOfRange_some hb] at h
    injection h with h
    exact .inl ⟨hb, h.symm⟩

/-- Everything a step can do: only a live machine has one, and it is a start, a delay tick, a sound tick or a cycle (R100, R104,
R255). -/
theorem stepMachine_next {s t : State} (h : stepMachine s = .next t) :
    s.engine.isHalted = false ∧
    ((s.nextEvent = .start ∧ s.engine = .ready ∧ t = s.afterEvent.setEngine .running) ∨
     (s.nextEvent = .tick .delay ∧ t = s.afterEvent.delayTick) ∨
     (s.nextEvent = .tick .sound ∧ t = s.afterEvent.soundTick) ∨
     (s.nextEvent = .tick .cycle ∧ execCycle s.afterEvent = .next t)) := by
  unfold stepMachine at h
  have key : runEvent s.nextEvent s.afterEvent = .next t →
      (s.nextEvent = .start ∧ s.engine = .ready ∧ t = s.afterEvent.setEngine .running) ∨
      (s.nextEvent = .tick .delay ∧ t = s.afterEvent.delayTick) ∨
      (s.nextEvent = .tick .sound ∧ t = s.afterEvent.soundTick) ∨
      (s.nextEvent = .tick .cycle ∧ execCycle s.afterEvent = .next t) := by
    intro h
    cases he : s.nextEvent with
    | start =>
      have hg : s.afterEvent.engine = s.engine := rfl
      rw [he] at h
      simp only [runEvent, startEngine, hg] at h
      cases hr : s.engine <;> simp [hr] at h
      exact .inl ⟨rfl, rfl, h.symm⟩
    | tick k =>
      rw [he] at h
      cases k with
      | cycle => exact .inr (.inr (.inr ⟨rfl, h⟩))
      | delay => injection h with h; exact .inr (.inl ⟨rfl, h.symm⟩)
      | sound => injection h with h; exact .inr (.inr (.inl ⟨rfl, h.symm⟩))
  cases hg : s.engine with
  | ready => rw [hg] at h; exact ⟨rfl, hg ▸ key h⟩
  | running => rw [hg] at h; exact ⟨rfl, hg ▸ key h⟩
  | halted why => rw [hg] at h; simp only at h; split at h <;> cases h

end Sys2Proof.Machine
end

