-- ==== Sys2Proof/Laws/PerInstr.lean ====
section
/-! SUPPORT. Families of statements made per instruction, one lemma per constructor. -/

namespace Sys2Proof.Laws

/-- The encoder writes a word of the instruction's own row of spec/opcode_table.json. -/
def Encoding.Statement (i : Instr) : Prop := inRow i.row (encode i) = true

theorem Encoding.cls : Encoding.Statement (.cls) := rfl

theorem Encoding.ret : Encoding.Statement (.ret) := rfl

theorem Encoding.jmp (nnn : Addr) : Encoding.Statement (.jmp nnn) := wordNNN_inRow (by decide) nnn

theorem Encoding.call (nnn : Addr) : Encoding.Statement (.call nnn) := wordNNN_inRow (by decide) nnn

theorem Encoding.se (x : Reg) (kk : Byte) : Encoding.Statement (.se x kk) := wordXKK_inRow (by decide) x kk

theorem Encoding.sne (x : Reg) (kk : Byte) : Encoding.Statement (.sne x kk) := wordXKK_inRow (by decide) x kk

theorem Encoding.ser (x y : Reg) : Encoding.Statement (.ser x y) := wordXYN_inRow_low (by decide) x y _

theorem Encoding.sner (x y : Reg) : Encoding.Statement (.sner x y) := wordXYN_inRow_low (by decide) x y _

theorem Encoding.set (x : Reg) (kk : Byte) : Encoding.Statement (.set x kk) := wordXKK_inRow (by decide) x kk

theorem Encoding.setr (x y : Reg) : Encoding.Statement (.setr x y) := wordXYN_inRow_low (by decide) x y _

theorem Encoding.add (x : Reg) (kk : Byte) : Encoding.Statement (.add x kk) := wordXKK_inRow (by decide) x kk

theorem Encoding.addr (x y : Reg) : Encoding.Statement (.addr x y) := wordXYN_inRow_low (by decide) x y _

theorem Encoding.sub (x y : Reg) : Encoding.Statement (.sub x y) := wordXYN_inRow_low (by decide) x y _

theorem Encoding.subr (x y : Reg) : Encoding.Statement (.subr x y) := wordXYN_inRow_low (by decide) x y _

theorem Encoding.or (x y : Reg) : Encoding.Statement (.or x y) := wordXYN_inRow_low (by decide) x y _

theorem Encoding.and (x y : Reg) : Encoding.Statement (.and x y) := wordXYN_inRow_low (by decide) x y _

theorem Encoding.xor (x y : Reg) : Encoding.Statement (.xor x y) := wordXYN_inRow_low (by decide) x y _

theorem Encoding.shr (x y : Reg) : Encoding.Statement (.shr x y) := wordXYN_inRow_low (by decide) x y _

theorem Encoding.shl (x y : Reg) : Encoding.Statement (.shl x y) := wordXYN_inRow_low (by decide) x y _

theorem Encoding.lda (nnn : Addr) : Encoding.Statement (.lda nnn) := wordNNN_inRow (by decide) nnn

theorem Encoding.jmpo (nnn : Addr) : Encoding.Statement (.jmpo nnn) := wordNNN_inRow (by decide) nnn

theorem Encoding.rand (x : Reg) (kk : Byte) : Encoding.Statement (.rand x kk) := wordXKK_inRow (by decide) x kk

theorem Encoding.draw (x y : Reg) (n : Rows) : Encoding.Statement (.draw x y n) := wordXYN_inRow (by decide) x y n

theorem Encoding.skp (x : Reg) : Encoding.Statement (.skp x) := wordXKK_inRow_low (by decide) x _

theorem Encoding.sknp (x : Reg) : Encoding.Statement (.sknp x) := wordXKK_inRow_low (by decide) x _

theorem Encoding.lddt (x : Reg) : Encoding.Statement (.lddt x) := wordXKK_inRow_low (by decide) x _

theorem Encoding.stdt (x : Reg) : Encoding.Statement (.stdt x) := wordXKK_inRow_low (by decide) x _

theorem Encoding.stst (x : Reg) : Encoding.Statement (.stst x) := wordXKK_inRow_low (by decide) x _

theorem Encoding.ldkp (x : Reg) : Encoding.Statement (.ldkp x) := wordXKK_inRow_low (by decide) x _

theorem Encoding.adda (x : Reg) : Encoding.Statement (.adda x) := wordXKK_inRow_low (by decide) x _

theorem Encoding.ldsa (x : Reg) : Encoding.Statement (.ldsa x) := wordXKK_inRow_low (by decide) x _

theorem Encoding.stdr (x : Reg) : Encoding.Statement (.stdr x) := wordXKK_inRow_low (by decide) x _

theorem Encoding.ldrd (x : Reg) : Encoding.Statement (.ldrd x) := wordXKK_inRow_low (by decide) x _

theorem Encoding.strd (x : Reg) : Encoding.Statement (.strd x) := wordXKK_inRow_low (by decide) x _

end Sys2Proof.Laws
end

