-- ==== Sys2Proof/Tests/Slice0.lean ====
section
/-! SUPPORT. The model's own tests. Expected results come from spec/95_test_vectors.md (the vector is named at each test) and from the
encoding tables of spec/30_encoding.md, never from the model. Then, for every statement with hypotheses, a state and operands that
meet them all. -/

namespace Sys2Proof.Tests

open Sys2Proof.Machine Sys2Proof.Config

/-! ## WellFormed: an ill-formed term for each check -/

theorem test_wellFormed_refuses_shr_with_y : Instr.wellFormed (.shr 1 2) = false := by decide
theorem test_wellFormed_refuses_shl_with_y : Instr.wellFormed (.shl 3 4) = false := by decide
theorem test_wellFormed_accepts_shr : Instr.wellFormed (.shr 1 0) = true := by decide

/-! ## Decode: each row's word written out from its encoding line -/

theorem test_decode_cls : decode false 0x00E0 = some .cls := by decide
theorem test_decode_ret : decode false 0x00EE = some .ret := by decide
theorem test_decode_jmp : decode false 0x120A = some (.jmp 0x20A) := by decide
theorem test_decode_call : decode false 0x2210 = some (.call 0x210) := by decide
theorem test_decode_se : decode false 0x3312 = some (.se 3 0x12) := by decide
theorem test_decode_sne : decode false 0x4312 = some (.sne 3 0x12) := by decide
theorem test_decode_ser : decode false 0x5120 = some (.ser 1 2) := by decide
theorem test_decode_sner : decode false 0x9F10 = some (.sner 15 1) := by decide
theorem test_decode_set : decode false 0x632A = some (.set 3 0x2A) := by decide
theorem test_decode_setr : decode false 0x8730 = some (.setr 7 3) := by decide
theorem test_decode_add : decode false 0x70FF = some (.add 0 0xFF) := by decide
theorem test_decode_addr : decode false 0x8544 = some (.addr 5 4) := by decide
theorem test_decode_sub : decode false 0x8545 = some (.sub 5 4) := by decide
theorem test_decode_subr : decode false 0x8237 = some (.subr 2 3) := by decide
theorem test_decode_or : decode false 0x8121 = some (.or 1 2) := by decide
theorem test_decode_and : decode false 0x8122 = some (.and 1 2) := by decide
theorem test_decode_xor : decode false 0x8113 = some (.xor 1 1) := by decide
theorem test_decode_shr : decode false 0x8126 = some (.shr 1 2) := by decide
theorem test_decode_shl : decode false 0x850E = some (.shl 5 0) := by decide
theorem test_decode_lda : decode false 0xA300 = some (.lda 0x300) := by decide
theorem test_decode_jmpo : decode false 0xB206 = some (.jmpo 0x206) := by decide
theorem test_decode_rand : decode false 0xC20F = some (.rand 2 0x0F) := by decide
theorem test_decode_draw : decode false 0xD125 = some (.draw 1 2 5) := by decide
theorem test_decode_skp : decode false 0xE49E = some (.skp 4) := by decide
theorem test_decode_sknp : decode false 0xE4A1 = some (.sknp 4) := by decide
theorem test_decode_lddt : decode false 0xF107 = some (.lddt 1) := by decide
theorem test_decode_stdt : decode false 0xF015 = some (.stdt 0) := by decide
theorem test_decode_stst : decode false 0xF218 = some (.stst 2) := by decide
theorem test_decode_ldkp : decode false 0xF30A = some (.ldkp 3) := by decide
theorem test_decode_adda : decode false 0xF11E = some (.adda 1) := by decide
theorem test_decode_ldsa : decode false 0xF129 = some (.ldsa 1) := by decide
theorem test_decode_stdr : decode false 0xF033 = some (.stdr 0) := by decide
theorem test_decode_ldrd : decode false 0xF265 = some (.ldrd 2) := by decide
theorem test_decode_strd : decode false 0xF155 = some (.strd 1) := by decide

/-- D-1, D-4 to D-7, D-9 to D-12, D-15, D-18. -/
theorem test_decode_unsupported :
    [0x0000, 0x00E1, 0x01E0, 0x0FEE, 0x0123, 0x5121, 0x9121, 0x8008, 0x800F, 0xE09F, 0xF000, 0xF0FF, 0xFFFF].all
      (fun w => decode false w == none) = true := by decide

/-- D-1, D-7, D-11, D-15, D-18 under loose decode. -/
theorem test_decode_unsupported_loose :
    [0x0000, 0x00E1, 0x0123, 0x8008, 0x800F, 0xE09F, 0xF000, 0xFFFF].all (fun w => decode true w == none) = true := by decide

/-- D-5, D-6, D-9, D-10. -/
theorem test_decode_loose :
    [0x01E0, 0x0FEE, 0x5121, 0x9121].map (decode true) = [some .cls, some .ret, some (.ser 1 2), some (.sner 1 2)] := by decide

/-- The high byte lies at the lower address (R51); one byte is too few (R71). -/
theorem test_decodeBytes :
    decodeBytes false [0xA3, 0x00, 0x60] = .ok (.lda 0x300, [0x60]) ∧
    decodeBytes false [0xA3] = .error (.truncated [0xA3]) := ⟨rfl, rfl⟩

theorem test_encodeBytes : encodeBytes (.lda 0x300) = [0xA3, 0x00] := by decide

theorem test_decodeTableWord : decodeTableWord 16 0xA300 = some (.lda 0x300) := by decide

/-! ## One instruction at a time -/

/-- Registers at given values. -/
def regs (l : List (Reg × Byte)) (s : State) : State := l.foldl (fun s p => s.setV p.1 p.2) s

/-- The spec's default start state with registers at given values. -/
def start (l : List (Reg × Byte)) : State := regs l State.reset

/-- The state after the next step runs the word `w`, read by `f`. -/
def after {α : Type} (f : State → α) (w : Nat) (s : State) : Option α :=
  match step (s.withFetchWord 16 w) with
  | .next t => some (f t)
  | _ => none

/-- C-1. -/
theorem test_ret : after (fun t => (t.pc, t.stack)) 0x00EE ((State.reset.setPc 0x212).setStack [0x206]) = some (0x206, []) := by
  decide

/-- C-2, S11. -/
theorem test_ret_empty : after (fun t => (t.engine, t.pc, t.stack)) 0x00EE State.reset
    = some (.halted (.fatal (.stackUnderflow 0x200)), 0x202, []) := by decide

/-- C-4. -/
theorem test_jmp_odd : after (·.pc) 0x1201 State.reset = some 0x201 := by decide

/-- S6. -/
theorem test_call : after (fun t => (t.pc, t.stack)) 0x2210 (State.reset.setPc 0x204) = some (0x210, [0x206]) := by decide

/-- C-6, its third cycle. -/
theorem test_call_overflow : after (fun t => (t.engine, t.pc, t.stack)) 0x2206
    (((State.reset.setPc 0x204).setStack [0x204, 0x202]).setParams { Params.default with stackDepth := .limit 2 })
    = some (.halted (.fatal (.stackOverflow 0x204)), 0x206, [0x204, 0x202]) := by decide

/-- C-8, and S7 with V3 = 13. -/
theorem test_se : after (·.pc) 0x3312 (start [(3, 0x12)]) = some 0x204 := by decide
theorem test_se_not : after (·.pc) 0x3312 (start [(3, 0x13)]) = some 0x202 := by decide

/-- C-9, and S7 with V3 = 13. -/
theorem test_sne_not : after (·.pc) 0x4312 (start [(3, 0x12)]) = some 0x202 := by decide
theorem test_sne : after (·.pc) 0x4312 (start [(3, 0x13)]) = some 0x204 := by decide

/-- S7. -/
theorem test_ser : after (·.pc) 0x5120 (start [(1, 0x40), (2, 0x40)]) = some 0x204 := by decide
theorem test_ser_not : after (·.pc) 0x5120 (start [(1, 0x40), (2, 0x41)]) = some 0x202 := by decide

/-- S7, C-11. -/
theorem test_sner : after (·.pc) 0x9120 (start [(1, 0x40), (2, 0x41)]) = some 0x204 := by decide
theorem test_sner_not : after (·.pc) 0x9F10 (start [(15, 1), (1, 1)]) = some 0x202 := by decide

/-- C-12, C-13. -/
theorem test_jmpo : after (·.pc) 0xB206 ((start [(0, 4)]).setPc 0x202) = some 0x20A := by decide
theorem test_jmpo_unmasked : after (·.pc) 0xBFFF (start [(0, 0xFF)]) = some 0x10FE := by decide

/-- A-1. -/
theorem test_set_vf : after (·.V VF) 0x6F7F State.reset = some 0x7F := by decide

/-- S1. -/
theorem test_setr : after (·.V 7) 0x8730 (start [(3, 0x2A)]) = some 0x2A := by decide

/-- A-2. -/
theorem test_add_no_flag : after (fun t => (t.V 0, t.V VF)) 0x7001 (start [(0, 0xFF), (15, 5)]) = some (0, 5) := by decide

/-- A-4, A-5. -/
theorem test_addr_255 : after (fun t => (t.V 1, t.V VF)) 0x8124 (start [(1, 0x7F), (2, 0x80)]) = some (0xFF, 0) := by decide
theorem test_addr_vf : after (·.V VF) 0x8F14 (start [(15, 0xFF), (1, 1)]) = some 1 := by decide

/-- S3 (b), A-8. -/
theorem test_sub_borrow : after (fun t => (t.V 5, t.V VF)) 0x8545 (start [(5, 4), (4, 5)]) = some (0xFF, 0) := by decide
theorem test_sub_vf : after (·.V VF) 0x8F15 (start [(15, 2), (1, 3)]) = some 0 := by decide

/-- A-9, A-10. -/
theorem test_subr_borrow : after (fun t => (t.V 2, t.V VF)) 0x8237 (start [(2, 5), (3, 4)]) = some (0xFF, 0) := by decide
theorem test_subr_equal : after (fun t => (t.V 1, t.V VF)) 0x8127 State.reset = some (0, 1) := by decide

/-- A-11, A-12, A-13. -/
theorem test_or : after (fun t => (t.V 1, t.V VF)) 0x8121 (start [(1, 1), (2, 2), (15, 7)]) = some (3, 7) := by decide
theorem test_and : after (·.V 1) 0x8122 (start [(1, 0x3C), (2, 0x0F)]) = some 0x0C := by decide
theorem test_xor : after (·.V 1) 0x8113 (start [(1, 0x3C)]) = some 0 := by decide

/-- The start state with SHIFT_VF_ALIAS set. -/
def aliased (p : ShiftVf) (b : Byte) : State := (start [(15, b)]).setParams { Params.default with shiftVf := p }

/-- S4 (b), A-21. -/
theorem test_shr : after (fun t => (t.V 5, t.V VF)) 0x8506 (start [(5, 0xFF)]) = some (0x7F, 1) := by decide
theorem test_shr_vf : [.resultLast, .reread, .flagLast].map (fun p => after (·.V VF) 0x8F06 (aliased p 0xFE))
    = [some 0x7F, some 0, some 0] := by decide

/-- A-14, A-22. -/
theorem test_shl : after (fun t => (t.V 1, t.V VF)) 0x810E (start [(1, 0x80)]) = some (0, 1) := by decide
theorem test_shl_vf : [.resultLast, .reread, .flagLast].map (fun p => after (·.V VF) 0x8F0E (aliased p 0x81))
    = [some 2, some 2, some 1] := by decide

/-- A-19, and one draw. -/
theorem test_rand : after (fun t => (t.V 2, t.random.drawn)) 0xC20F
    (State.reset.setRandom { queued := [0xA7], drawn := 0 }) = some (7, 1) := by decide

/-- M-1. -/
theorem test_lda : after (·.i) 0xAFFF State.reset = some 0xFFF := by decide

/-- M-2, M-3. -/
theorem test_adda : after (·.i) 0xF11E ((start [(1, 0x20)]).setI 0xFF0) = some 0x1010 := by decide
theorem test_adda_wraps : after (·.i) 0xF11E ((start [(1, 1)]).setI 0xFFFF) = some 0 := by decide

/-- M-4, M-5. -/
theorem test_ldsa_unmasked : after (·.i) 0xF129 (start [(1, 0xFF)]) = some 0x4FB := by decide
theorem test_ldsa : after (·.i) 0xF129 (start [(1, 0x0F)]) = some 0x04B := by decide

/-- The bytes at some addresses. -/
def bytesAt (l : List Nat) (t : State) : List Byte := l.map (Memory.get t.mem)

/-- The example of R183, and M-9. -/
theorem test_stdr : after (fun t => (bytesAt [0x300, 0x301, 0x302] t, t.i)) 0xF033 ((start [(0, 0xFE)]).setI 0x300)
    = some ([2, 5, 4], 0x300) := by decide
theorem test_stdr_oob : after (fun t => (t.engine, t.pc)) 0xF033 ((start [(0, 0xFF)]).setI 0xFFE)
    = some (.halted (.fatal (.memOob .write 0x1000 0x200)), 0x202) := by decide

/-- M-11, M-13. -/
theorem test_ldrd : after (fun t => (t.V 0, t.V 1, t.V 2, t.V 3)) 0xF265
    (((start [(3, 9)]).setI 0x300).setMem [(0x300, 2), (0x301, 5), (0x302, 4), (0x303, 1)]) = some (2, 5, 4, 9) := by decide
theorem test_ldrd_oob : after (fun t => (t.engine, t.pc)) 0xFF65 (State.reset.setI 0xFF1)
    = some (.halted (.fatal (.memOob .read 0x1000 0x200)), 0x202) := by decide

/-- M-14, M-16: the font is not protected. -/
theorem test_strd : after (fun t => (bytesAt [0x400, 0x401, 0x402] t, t.i)) 0xF155 ((start [(0, 0x11), (1, 0x22)]).setI 0x400)
    = some ([0x11, 0x22, 0], 0x400) := by decide
theorem test_strd_font : after (bytesAt [0, 1]) 0xF055 (start [(0, 0xAA)]) = some [0xAA, 0x90] := by decide

/-- The pixels of some columns of a row. -/
def pixelsAt (row : Fin 32) (cols : List (Fin 64)) (t : State) : List Bool := cols.map fun c => Display.get t.display c row

/-- G-8. -/
theorem test_cls : after (fun t => (pixelsAt 3 [5, 6] t, t.V VF)) 0x00E0
    ((start [(15, 1)]).setDisplay (Display.set Display.blank 5 3 true)) = some ([false, false], 1) := by decide

/-- G-3: the start wraps, and a lit pixel elsewhere stays. -/
theorem test_draw_wraps_start : after (fun t => (pixelsAt 8 [5, 6, 7, 8, 9, 10] t, t.V VF)) 0xD121
    ((start [(1, 0x46), (2, 0x28)]).setDisplay (Display.set Display.blank 5 8 true))
    = some ([true, true, true, true, true, false], 0) := by decide

/-- S9: the second draw, here of one pixel under the glyph's first. -/
theorem test_draw_collides : after (fun t => (pixelsAt 0 [0, 1, 2, 3, 4] t, t.V VF)) 0xD121
    (State.reset.setDisplay (Display.set Display.blank 0 0 true)) = some ([false, true, true, true, false], 1) := by decide

/-- The start state with one injected key state: key 7 held or not. -/
def key7 (held : Bool) (x : Reg) (b : Byte) : State :=
  (start [(x, b)]).setKeypad { queued := [Vector.set (Vector.replicate 16 false) 7 held], drawn := 0 }

/-- K-1, K-4. -/
theorem test_skp : after (·.pc) 0xE49E (key7 true 4 7) = some 0x204 := by decide
theorem test_skp_range : after (fun t => (t.engine, t.pc, t.keypad.drawn)) 0xE19E (key7 true 1 0x10)
    = some (.halted (.fatal (.keyRange .skp 0x200 0x10)), 0x202, 0) := by decide

/-- K-3, K-5. -/
theorem test_sknp : after (·.pc) 0xE4A1 (key7 false 4 7) = some 0x204 := by decide
theorem test_sknp_range : after (·.engine) 0xE1A1 (key7 true 1 0xFF)
    = some (.halted (.fatal (.keyRange .sknp 0x200 0xFF))) := by decide

/-- K-6. -/
theorem test_lddt : after (fun t => (t.V 1, t.dt)) 0xF107 (State.reset.setDt 0x3C) = some (0x3C, 0x3C) := by decide

/-- T-6: the later write wins. -/
theorem test_stdt : after (·.dt) 0xF015 ((start [(0, 9)]).setDt 5) = some 9 := by decide

/-- K-8. -/
theorem test_stst : after (fun t => (t.st, t.dt)) 0xF218 (start [(2, 0x10)]) = some (0x10, 0) := by decide

/-- K-9: rewound, register unchanged, and a Cycle Context built. -/
theorem test_ldkp_none : after (fun t => (t.pc, t.V 3, t.context.isSome)) 0xF30A
    ((start [(3, 9)]).setPolls { queued := [none], drawn := 0 }) = some (0x200, 9, true) := by decide

/-- K-10. -/
theorem test_ldkp_key : after (fun t => (t.pc, t.V VF)) 0xFF0A
    ((start [(15, 9)]).setPolls { queued := [some 0], drawn := 0 }) = some (0x202, 0) := by decide

/-! ## The engine, the clocks and construction -/

/-- A state in which the given event comes next. -/
def next (e : Event) (s : State) : State := s.setSchedule { queued := [e], drawn := 0 }

/-- The state after one step, read by `f`. -/
def stepped {α : Type} (f : State → α) (s : State) : Option α :=
  match step s with
  | .next t => some (f t)
  | _ => none

/-- E-1, E-2. -/
theorem test_start : stepped (·.engine) (next .start State.reset) = some .running := by decide
theorem test_manual_cycle : after (fun t => (t.V 1, t.pc, t.engine)) 0x6105 State.reset = some (5, 0x202, .ready) := by decide

/-- What an observer has been sent: how many contexts, and V1, PC and the opcode of the last. -/
def seen (o : Observer) : Nat × Option (Byte × Word × Word) := (o.calls, o.last.map fun c => (c.v[1], c.pc, c.opcode))

/-- Running, with two observers and their answers injected. -/
def observed (answers : List Bool) : State :=
  ((State.reset.setEngine .running).setObservers [Observer.registered, Observer.registered]).setHalts
    { queued := answers, drawn := 0 }

/-- E-3: both observers are called although the first asks for a halt. -/
theorem test_observers_asked : after (·.engine) 0x6105 (observed [true, false]) = some (.halted .observer) := by decide
theorem test_observers_called : after (·.observers.map seen) 0x6105 (observed [true, false])
    = some [(1, some (5, 0x202, 0x6105)), (1, some (5, 0x202, 0x6105))] := by decide

/-- E-4. -/
theorem test_halted_refuses : step (next .start (State.reset.setEngine (.halted .observer))) = .refused .haltedMachine := rfl

/-- E-6. -/
theorem test_fatal_calls_nobody : after (fun t => t.observers) 0x00EE
    ((State.reset.setEngine .running).setObservers [Observer.registered]) = some [Observer.registered] := by decide

/-- S10, T-2, T-3: the last tick to zero, and the floor. -/
theorem test_delay_tick : stepped (fun t => (t.dt, t.st, t.engine)) (next (.tick .delay) ((State.reset.setDt 1).setSt 7))
    = some (0, 7, .ready) := by decide
theorem test_delay_tick_floor : stepped (·.dt) (next (.tick .delay) State.reset) = some 0 := by decide
theorem test_sound_tick : stepped (fun t => (t.st, t.dt)) (next (.tick .sound) ((State.reset.setSt 2).setDt 7)) = some (1, 7) := by
  decide

/-- One tick takes one event (R255: exactly one tick acts at a time). -/
theorem test_one_event : stepped (·.schedule) (State.reset.setSchedule { queued := [.tick .delay, .start], drawn := 3 })
    = some { queued := [.start], drawn := 4 } := by decide

/-- F-1, C-14. -/
theorem test_fetch_second_byte : stepped (fun t => (t.engine, t.pc)) (next (.tick .cycle) (State.reset.setPc 0xFFF))
    = some (.halted (.fatal (.memOob .fetch 0x1000 0xFFF)), 0xFFF) := by decide
theorem test_fetch_first_byte : stepped (·.engine) (next (.tick .cycle) (State.reset.setPc 0x10FE))
    = some (.halted (.fatal (.memOob .fetch 0x10FE 0x10FE))) := by decide

/-- F-2. -/
theorem test_unsupported : stepped (fun t => (t.engine, t.pc)) (next (.tick .cycle) (State.reset.setPc 0xFFE))
    = some (.halted (.fatal (.unsupported 0 0xFFE)), 0x1000) := by decide

/-- R-3. -/
theorem test_empty_image : stepped (·.engine) (next (.tick .cycle) State.reset)
    = some (.halted (.fatal (.unsupported 0 0x200))) := by decide

/-- State.reset is the machine that construction builds from the empty image (R37, R280). -/
theorem test_construct_empty : construct Setup.default [] = .next State.reset := by rfl

/-- R-2. -/
theorem test_construct_oversized : construct Setup.default (List.replicate 3585 0) = .refused .imageTooLarge := by
  rw [construct, if_pos (by rw [List.length_replicate]; decide)]

/-- A program image lies at 0x200, high byte first (P2's first word). -/
theorem test_construct_image : (match construct Setup.default [0xA3, 0x00] with
    | .next s => bytesAt [0x1FF, 0x200, 0x201, 0x202, 0, 4] s
    | _ => []) = [0, 0xA3, 0, 0, 0xF0, 0xF0] := by decide

/-! ## Witnesses: a state and operands that meet the hypotheses of each statement

Named `witness_<statement>`, with one per clause where a statement has several. -/

section Encoding

theorem witness_StrictDecodeLosesNoBit : decode false 0x8126 = some (.shr 1 2) := by decide

theorem witness_DecoderIsTheOpcodeTable : decode false 0xFF65 = some (.ldrd 15) ∧ inRow (Instr.ldrd 3).row 0xFF65 = true ∧
    inRow (Instr.ldrd 15).row 0xFF65 = true := by decide

theorem witness_LooseDecodeAddsIgnoredBits_strict : decode false 0x5120 = some (.ser 1 2) := by decide

theorem witness_LooseDecodeAddsIgnoredBits_cls :
    decode false 0x01E0 = none ∧ field 0x01E0 15 12 = 0x0 ∧ field 0x01E0 7 0 = 0xE0 := by decide

theorem witness_LooseDecodeAddsIgnoredBits_ret :
    decode false 0x0FEE = none ∧ field 0x0FEE 15 12 = 0x0 ∧ field 0x0FEE 7 0 = 0xEE := by decide

theorem witness_LooseDecodeAddsIgnoredBits_skips : field 0x512F 15 12 = 0x5 ∧ field 0x912F 15 12 = 0x9 := by decide

theorem witness_LooseDecodeAddsIgnoredBits_none : decode false 0x00E1 = none ∧
    ¬(field 0x00E1 15 12 = 0x0 ∧ (field 0x00E1 7 0 = 0xE0 ∨ field 0x00E1 7 0 = 0xEE)) ∧
    field 0x00E1 15 12 ≠ 0x5 ∧ field 0x00E1 15 12 ≠ 0x9 := by decide

end Encoding

section Handlers

/-- The default parameters are in their domains. -/
theorem paramsWf_default : Params.default.wf := by simp [Params.wf, Params.default]

/-- A state with the highest return address on the stack meets the invariant. -/
theorem witness_RetPopsOrUnderflows_pop :
    (State.reset.setStack [0x1000]).stack = 0x1000 :: [] ∧ MachineInv (State.reset.setStack [0x1000]) :=
  ⟨rfl, Memory.wf_nil, by decide, by simp, by simp [State.reset, Params.default], paramsWf_default⟩

theorem witness_RetPopsOrUnderflows_empty : State.reset.stack = [] := rfl

theorem witness_RetPopsOrUnderflows_fetch : Live (next (.tick .cycle) (State.reset.setPc 0x1000)) ∧
    (next (.tick .cycle) (State.reset.setPc 0x1000)).nextEvent = .tick .cycle ∧
    (next (.tick .cycle) (State.reset.setPc 0x1000)).pc = 0x1000 := ⟨rfl, rfl, rfl⟩

theorem witness_JmpSetsPc_fetch : Live (next (.tick .cycle) (State.reset.setPc 0xFFF)) ∧
    (next (.tick .cycle) (State.reset.setPc 0xFFF)).nextEvent = .tick .cycle ∧
    (next (.tick .cycle) (State.reset.setPc 0xFFF)).pc = 0xFFF := ⟨rfl, rfl, rfl⟩

/-- A machine with STACK_DEPTH = 2. -/
def depth2 (l : List Word) : State := (State.reset.setStack l).setParams { Params.default with stackDepth := .limit 2 }

theorem witness_CallPushesOrOverflows_room : (depth2 [0x202]).params.stackDepth ≠ .limit (depth2 [0x202]).stack.length := by decide

theorem witness_CallPushesOrOverflows_unbounded :
    State.reset.params.stackDepth ≠ .limit State.reset.stack.length := by decide

theorem witness_CallPushesOrOverflows_full :
    (depth2 [0x204, 0x202]).params.stackDepth = .limit (depth2 [0x204, 0x202]).stack.length := by decide

theorem witness_RetAfterCallReturns : (depth2 [0x202]).params.stackDepth ≠ .limit (depth2 [0x202]).stack.length ∧
    ∃ t u : State, exec (.call 0x210) (depth2 [0x202]) = .next t ∧ u ≠ t ∧ u.stack = t.stack :=
  ⟨by decide, _, State.setDt _ 1, rfl, by decide, rfl⟩

/-- The guard of the result clauses of ADDR, SUB and SUBR, and the hypothesis of ShiftsSetVfToBitShiftedOut. -/
theorem witness_ShiftsSetVfToBitShiftedOut : (14 : Reg) ≠ VF := by decide

theorem witness_RandMasksOneDraw :
    (State.reset.setRandom { queued := [0xAB], drawn := 0 }).random.queued = 0xAB :: [] := rfl

theorem witness_StdrStoresDecimalDigits_inBounds :
    Memory.wf (State.reset.setI 0xFFD).mem ∧ DataInBounds (State.reset.setI 0xFFD) 3 := ⟨Memory.wf_nil, .inr (by decide)⟩

theorem witness_StdrStoresDecimalDigits_outOfBounds : Memory.wf (State.reset.setI 0xFFE).mem ∧
    ¬ DataInBounds (State.reset.setI 0xFFE) 3 ∧ (State.reset.setI 0xFFE).ea 1 < 4096 :=
  ⟨Memory.wf_nil, by unfold DataInBounds; decide, by decide⟩

theorem witness_LdrdLoadsRegisters_inBounds : DataInBounds (State.reset.setI 0xFF0) ((15 : Reg).val + 1) := .inr (by decide)

theorem witness_LdrdLoadsRegisters_outOfBounds : ¬ DataInBounds (State.reset.setI 0xFF1) ((15 : Reg).val + 1) := by
  unfold DataInBounds; decide

theorem witness_StrdStoresRegisters_inBounds :
    Memory.wf (State.reset.setI 0xFFF).mem ∧ DataInBounds (State.reset.setI 0xFFF) ((0 : Reg).val + 1) :=
  ⟨Memory.wf_nil, .inr (by decide)⟩

theorem witness_StrdStoresRegisters_outOfBounds : Memory.wf (State.reset.setI 0xFFF).mem ∧
    ¬ DataInBounds (State.reset.setI 0xFFF) ((1 : Reg).val + 1) ∧ (State.reset.setI 0xFFF).ea (0 : Reg).val < 4096 :=
  ⟨Memory.wf_nil, by unfold DataInBounds; decide, by decide⟩

/-- V0 = 0x11 and V1 = 0x22 with I = 0xFFE, the highest place for two bytes. -/
def storing : State := (start [(0, 0x11), (1, 0x22)]).setI 0xFFE

theorem witness_LdrdReadsBackStrd : Memory.wf storing.mem ∧ DataInBounds storing ((1 : Reg).val + 1) ∧
    ∃ t u : State, exec (.strd 1) storing = .next t ∧ u.V 0 ≠ t.V 0 ∧ u.mem = t.mem ∧ u.i = t.i :=
  ⟨Memory.wf_nil, .inr (by decide), _, (storing.storeAtI (storing.firstRegs 1)).setV 0 0, rfl, by decide, rfl, rfl⟩

theorem witness_FetchSeesEarlierStore : (1 : Reg) ≤ 1 ∧ Memory.wf storing.mem ∧ DataInBounds storing ((1 : Reg).val + 1) ∧
    ∃ t u : State, exec (.strd 1) storing = .next t ∧ u.mem = t.mem ∧ u.pc = t.i :=
  ⟨by decide, Memory.wf_nil, .inr (by decide), _, (storing.storeAtI (storing.firstRegs 1)).setPc 0xFFE, rfl, rfl, rfl⟩

theorem witness_DrawXorsSpriteAndSetsCollision_noRows : DataInBounds (State.reset.setI 0xFFFF) (0 : Rows).val := .inl rfl

/-- The display with one pixel lit under the glyph at 0x000. -/
def lit : State := State.reset.setDisplay (Display.set Display.blank 0 0 true)

theorem witness_DrawXorsSpriteAndSetsCollision_collides : DataInBounds lit (5 : Rows).val ∧ Collides lit 1 2 (5 : Rows).val :=
  ⟨.inr (by decide), 0, 0, by decide, by decide⟩

theorem witness_DrawXorsSpriteAndSetsCollision_clear :
    DataInBounds (State.reset.setI 0xFF1) (15 : Rows).val ∧ ¬ Collides (State.reset.setI 0xFF1) 1 2 (15 : Rows).val := by
  refine ⟨.inr (by decide), ?_⟩
  rintro ⟨px, py, h, -⟩
  exact Bool.noConfusion ((Display.get_blank px py).symm.trans h)

theorem witness_DrawOutOfMemoryHalts : ¬ DataInBounds (State.reset.setI 0xFFE) (3 : Rows).val := by
  unfold DataInBounds; decide

theorem witness_DrawTwiceRestoresDisplay : (1 : Reg) ≠ VF ∧ (2 : Reg) ≠ VF ∧ DataInBounds State.reset (5 : Rows).val ∧
    (∃ t, exec (.draw 1 2 5) State.reset = .next t) ∧
    spritePixel State.reset 1 2 (5 : Rows).val 0 0 = true ∧ Display.get State.reset.display 0 0 = false :=
  ⟨by decide, by decide, .inr (by decide), ⟨_, rfl⟩, by decide, by decide⟩

theorem witness_KeyTestsSkipOnAnswer : ((start [(4, 15)]).V 4).toNat = (15 : Key).val ∧
    (key7 true 4 15).keypad.queued = Vector.set (Vector.replicate 16 false) 7 true :: [] := ⟨by decide, rfl⟩

theorem witness_KeyTestsOutOfRangeHalt : 15 < ((start [(4, 16)]).V 4).toNat := by decide

theorem witness_StstWritesSoundTimerUnread : ∀ x, Instr.lddt 3 ≠ .stst x := by decide

theorem witness_LdkpPollsAndRetries_none : (State.reset.setPolls { queued := [none], drawn := 0 }).polls.queued = none :: [] ∧
    (State.reset.setPolls { queued := [none], drawn := 0 }).polledKey = none := ⟨rfl, rfl⟩

theorem witness_LdkpPollsAndRetries_key :
    (State.reset.setPolls { queued := [some 15], drawn := 0 }).polledKey = some 15 := rfl

end Handlers

section Cycle

/-- A machine whose next step is a cycle that runs `SET V1, 0x05`, with two observers and given answers. -/
def setting (answers : List Bool) : State :=
  ((State.reset.setObservers [Observer.registered, Observer.registered]).setHalts { queued := answers, drawn := 0 }).withFetchWord
    16 0x6105

theorem witness_StepRunsDecodedInstruction : Live (setting []) ∧ (setting []).nextEvent = .tick .cycle ∧
    FetchInBounds (setting []) ∧
    decode (setting []).params.looseDecode
      (joinBytes (Memory.get (setting []).mem (setting []).pc.toNat) (Memory.get (setting []).mem ((setting []).pc.toNat + 1)))
      = some (.set 1 0x05) := ⟨rfl, rfl, by unfold FetchInBounds; decide, by decide⟩

/-- The first byte out of memory, the second, and the last fetch that succeeds. -/
theorem witness_FetchReadsBigEndianOrHalts : ∀ p ∈ [0x1000, 0xFFF, 0xFFE], Live (next (.tick .cycle) (State.reset.setPc p)) ∧
    (next (.tick .cycle) (State.reset.setPc p)).nextEvent = .tick .cycle := fun _ _ => ⟨rfl, rfl⟩

theorem witness_FetchReadsBigEndianOrHalts_bounds : 4096 ≤ (State.reset.setPc 0x1000).pc.toNat ∧
    4096 ≤ (State.reset.setPc 0xFFF).pc.toNat + 1 ∧ FetchInBounds (State.reset.setPc 0xFFE) ∧
    ∃ t, step (next (.tick .cycle) (State.reset.setPc 0xFFE)) = .next t :=
  ⟨by decide, by decide, by unfold FetchInBounds; decide, _, rfl⟩

theorem witness_UnsupportedWordHalts : Live (next (.tick .cycle) State.reset) ∧
    (next (.tick .cycle) State.reset).nextEvent = .tick .cycle ∧ FetchInBounds (next (.tick .cycle) State.reset) ∧
    decode (next (.tick .cycle) State.reset).params.looseDecode (next (.tick .cycle) State.reset).opcodeAtPc = none :=
  ⟨rfl, rfl, by unfold FetchInBounds; decide, by decide⟩

theorem witness_CompletedCycleNotifiesObservers : Live (setting []) ∧ (setting []).nextEvent = .tick .cycle ∧
    FetchInBounds (setting []) ∧ decode (setting []).params.looseDecode (setting []).opcodeAtPc = some (.set 1 0x05) ∧
    ∃ u, exec (.set 1 0x05) (setting []).afterEvent.advance = .next u ∧ Live u :=
  ⟨rfl, rfl, by unfold FetchInBounds; decide, by decide, _, rfl, rfl⟩

theorem witness_CompletedCycleNotifiesObservers_halt : SomeoneHalts (setting [false, true]).halts 2 := ⟨1, by decide, rfl⟩

theorem witness_CompletedCycleNotifiesObservers_goOn : ¬ SomeoneHalts (setting [false, false]).halts 2 := by
  rintro ⟨k, hk, h⟩
  match k, hk with
  | 0, _ => exact Bool.noConfusion h
  | 1, _ => exact Bool.noConfusion h

/-- A machine whose next step is a RET on an empty stack. -/
def returning : State := State.reset.withFetchWord 16 0x00EE

theorem witness_FatalCycleNotifiesNobody : Live returning ∧ returning.nextEvent = .tick .cycle ∧ FetchInBounds returning ∧
    decode returning.params.looseDecode returning.opcodeAtPc = some .ret ∧
    ∃ u, exec .ret returning.afterEvent.advance = .next u ∧ u.engine.isHalted = true :=
  ⟨rfl, rfl, by unfold FetchInBounds; decide, by decide, _, rfl, rfl⟩

theorem witness_HaltedIsTerminal : (State.reset.setEngine (.halted .observer)).engine.isHalted = true := rfl

theorem witness_StartMovesReadyToRunning : (next .start State.reset).engine = .ready ∧
    (next .start State.reset).nextEvent = .start := ⟨rfl, rfl⟩

theorem witness_StartMovesReadyToRunning_refused : (next .start (State.reset.setEngine .running)).engine = .running ∧
    (next .start (State.reset.setEngine .running)).nextEvent = .start := ⟨rfl, rfl⟩

theorem witness_EngineTransitions : ∃ t, step (next .start State.reset) = .next t := ⟨_, rfl⟩

theorem witness_DelayTickCountsDown : Live (next (.tick .delay) State.reset) ∧
    (next (.tick .delay) State.reset).nextEvent = .tick .delay := ⟨rfl, rfl⟩

theorem witness_SoundTickCountsDown : Live (next (.tick .sound) State.reset) ∧
    (next (.tick .sound) State.reset).nextEvent = .tick .sound := ⟨rfl, rfl⟩

theorem witness_LiveMachineAlwaysSteps : Live (State.reset.setEngine .running) ∧
    ((State.reset.setEngine .running).engine = .running →
      (State.reset.setEngine .running).schedule.queued.head? ≠ some .start) := ⟨rfl, fun _ => by decide⟩

/-- A queued event, and a step that takes it although it halts the machine. -/
theorem witness_StepTakesOneEvent : (next (.tick .cycle) State.reset).schedule.queued = .tick .cycle :: [] ∧
    ∃ t, step (next (.tick .cycle) State.reset) = .next t ∧ t.engine.isHalted = true := ⟨rfl, _, rfl, rfl⟩

theorem witness_HandlersWriteOnlyTheirParts : ∃ t, exec (.draw 1 2 5) State.reset = .next t := ⟨_, rfl⟩

theorem witness_PcAdvancesByTwo : (setting []).nextEvent = .tick .cycle ∧ FetchInBounds (setting []) ∧
    decode (setting []).params.looseDecode (setting []).opcodeAtPc = some (.set 1 0x05) ∧
    .pc ∉ (Instr.set 1 0x05).mayWrite ∧ ∃ t, step (setting []) = .next t :=
  ⟨rfl, by unfold FetchInBounds; decide, by decide, by decide, _, rfl⟩

theorem witness_StepKeepsInvariant :
    MachineInv (next .start State.reset) ∧ ∃ t, step (next .start State.reset) = .next t :=
  ⟨⟨Memory.wf_nil, by decide, by simp [next, State.reset], by simp [next, State.reset, Params.default], paramsWf_default⟩, _, rfl⟩

theorem witness_StepKeepsParameters : ∃ t, step (next (.tick .delay) State.reset) = .next t := ⟨_, rfl⟩

theorem witness_ConstructionLoadsImageVerbatim_oversized : 3584 < (List.replicate 3585 (0 : Byte)).length := by
  rw [List.length_replicate]; decide

theorem witness_ConstructionLoadsImageVerbatim_fits : Setup.default.wf ∧ (List.replicate 3584 (1 : Byte)).length ≤ 3584 :=
  ⟨⟨paramsWf_default, by decide, Memory.wf_nil⟩, by rw [List.length_replicate]⟩

end Cycle

end Sys2Proof.Tests
end

section
/-! The execution cycle: the obligations of the family 40_cycle. -/

namespace Sys2Proof.Proofs

open Sys2Proof.Machine

/-- Settles O45: what `stepMachine_next` says of a step first of all is that it comes from a machine that is not halted (R104). -/
theorem haltedIsTerminal : Obligations.HaltedIsTerminal := by
  intro s t hHalted hStep
  obtain ⟨hLive, -⟩ := stepMachine_next hStep
  exact Bool.false_ne_true (hLive.symm.trans hHalted)

end Sys2Proof.Proofs
end

section
/-! Control transfer: the obligations of the family 41_control, over the facts they share with other families: the decoder reads
back what the encoder writes, what a single update leaves unchanged, and when a fetch is fatal. -/

namespace Sys2Proof.Proofs

open Sys2Proof.Machine

/-! ## The decoder reads back what the encoder writes -/

/-- The strict opcode map reads every instruction back from its word: the cases are the groups of R75 to R79, each by the fields of
its format. -/
theorem decodeStrict_encode (i : Instr) : decodeStrict (encode i) = some i := by
  cases i with
  | cls | ret => rfl
  | jmp | call | lda | jmpo => simp [encode, decodeStrict, topNibble_wordNNN, fieldNNN_wordNNN]
  | se | sne | set | add | rand =>
    simp [encode, decodeStrict, topNibble_wordXKK, fieldX_wordXKK, fieldKK_wordXKK]
  | ser | sner =>
    simp [encode, decodeStrict, topNibble_wordXYN, lowNibble_wordXYN, fieldX_wordXYN, fieldY_wordXYN]
  | setr | addr | sub | subr | or | and | xor | shr | shl =>
    simp [encode, decodeStrict, decodeGroup8, topNibble_wordXYN, lowNibble_wordXYN, fieldX_wordXYN, fieldY_wordXYN]
  | draw =>
    simp [encode, decodeStrict, topNibble_wordXYN, fieldX_wordXYN, fieldY_wordXYN, fieldN_wordXYN]
  | skp | sknp =>
    simp [encode, decodeStrict, decodeGroupE, topNibble_wordXKK, lowByte_wordXKK, fieldX_wordXKK]
  | lddt | stdt | stst | ldkp | adda | ldsa | stdr | ldrd | strd =>
    simp [encode, decodeStrict, decodeGroupF, topNibble_wordXKK, lowByte_wordXKK, fieldX_wordXKK]

/-- A number that is the word of `i` stands for `i` under both decode settings: LOOSE_DECODE only adds words (R78, R79). -/
theorem encodes_of_encode_toNat {i : Instr} {n : Nat} (h : (encode i).toNat = n) : Encodes i n := by
  intro loose
  rw [← h, BitVec.ofNat_toNat, BitVec.setWidth_eq, decode, decodeStrict_encode]

section Formats

variable {i : Instr} {g base : Nat} {x y : Reg}

/-! The words of R73's formats as the rules' Encoding lines write them: the fixed bits, then each operand at its place. -/

theorem encodes_of_wordNNN {nnn : Addr} (h : encode i = wordNNN g nnn) (hBase : base = g * 4096) (hg : g < 16) :
    Encodes i (base + nnn.toNat) :=
  encodes_of_encode_toNat (by rw [h, wordNNN_toNat hg, hBase])

theorem encodes_of_wordXKK {kk : Byte} (h : encode i = wordXKK g x kk) (hBase : base = g * 4096) (hg : g < 16) :
    Encodes i (base + 256 * x.val + kk.toNat) :=
  encodes_of_encode_toNat (by rw [h, wordXKK_toNat hg, hBase, Nat.mul_comm x.val])

theorem encodes_of_wordXYN {n : Fin 16} (h : encode i = wordXYN g x y n) (hBase : base = g * 4096 + n.val) (hg : g < 16) :
    Encodes i (base + 256 * x.val + 16 * y.val) :=
  encodes_of_encode_toNat (by rw [h, wordXYN_toNat hg]; omega)

end Formats

/-! ## What updates leave unchanged -/

section Frames

variable {es es' : List Part} {s t u : State}

theorem unchanged_mono (h : Unchanged es s t) (hes : es ⊆ es') : Unchanged es' s t :=
  fun p hp => h p fun hmem => hp (hes hmem)

/-- Memory and display read the same location by location (`Part.same`); every other part is one value. -/
theorem part_same_trans (p : Part) (hst : p.same s t) (htu : p.same t u) : p.same s u := by
  cases p with
  | mem => exact fun a => (htu a).trans (hst a)
  | display => exact fun x y => (htu x y).trans (hst x y)
  | _ => exact Eq.trans htu hst

theorem unchanged_trans (hst : Unchanged es s t) (htu : Unchanged es t u) : Unchanged es s u :=
  fun p hp => part_same_trans p (hst p hp) (htu p hp)

theorem unchanged_setPc (w : Word) : Unchanged [.pc] s (s.setPc w) := by
  intro p hp
  cases p with
  | pc => simp at hp
  | _ => simp [Part.same]

theorem unchanged_setStack (l : List Word) : Unchanged [.stack] s (s.setStack l) := by
  intro p hp
  cases p with
  | stack => simp at hp
  | _ => simp [Part.same]

theorem unchanged_raise (d : Diagnostic) : Unchanged [.engine] s (s.raise d) := by
  intro p hp
  cases p with
  | engine => simp at hp
  | _ => simp [Part.same]

end Frames

/-! ## The step that runs a cycle -/

section Steps

variable {s : State}

/-- A live machine does what comes next. -/
theorem step_of_live (hLive : Live s) : step s = runEvent s.nextEvent s.afterEvent := by
  unfold step stepMachine
  cases he : s.engine with
  | ready | running => rfl
  | halted why => simp [Live, Engine.isHalted, he] at hLive

/-- A cycle whose two bytes are not both in memory is fatal at the first address that is not (R55, R105). -/
theorem fetchHaltsAt_of_pc {p : Word} (hLive : Live s) (hNext : s.nextEvent = .tick .cycle) (hPc : s.pc = p)
    (hOut : ¬ p.toNat + 1 < memSize) : FetchHaltsAt (max p.toNat memSize) s := by
  subst hPc
  have hFetch : s.afterEvent.fetchOutOfRange = some (max s.pc.toNat memSize) := s.afterEvent.fetchOutOfRange_some hOut
  refine ⟨s.afterEvent.raise (.memOob .fetch (max s.pc.toNat memSize) s.pc), ?_, State.raise_engine _ _⟩
  rw [step_of_live hLive, hNext, runEvent, runTick, execCycle, hFetch]
  rfl

end Steps

/-! ## Jumps and returns -/

/-- Zero-extension keeps the number (R74). -/
theorem addrOperand_toNat (nnn : Addr) : (addrOperand nnn).toNat = nnn.toNat := by
  have := nnn.isLt
  rw [addrOperand, BitVec.toNat_ofNat]
  omega

/-- RET on a non-empty stack (R130). -/
theorem exec_ret_of_cons {s : State} {w : Word} {rest : List Word} (h : s.stack = w :: rest) :
    exec .ret s = .next ((s.setStack rest).setPc w) := by
  rw [exec, execRet, h]

/-- RET on an empty stack (R130, R243). -/
theorem exec_ret_of_nil {s : State} (h : s.stack = []) : exec .ret s = .next (s.raise (.stackUnderflow (s.pc - 2))) := by
  rw [exec, execRet, h, State.instrAddr]

/-- Settles O7: the stack decides between the pop and STACK_UNDERFLOW; the bound on the popped value is the invariant's own. -/
theorem retPopsOrUnderflows : Obligations.RetPopsOrUnderflows := by
  refine ⟨encodes_of_encode_toNat rfl, fun s w rest hStack => ?_, fun s hStack => ?_, fun s hLive hNext hPc => ?_⟩
  · have hFrame : Unchanged [.pc, .stack] s ((s.setStack rest).setPc w) :=
      unchanged_trans (unchanged_mono (unchanged_setStack rest) (by simp)) (unchanged_mono (unchanged_setPc w) (by simp))
    exact ⟨_, exec_ret_of_cons hStack, rfl, rfl, hFrame, fun hInv => hInv.returnBound w (by simp [hStack])⟩
  · exact ⟨_, exec_ret_of_nil hStack, State.raise_engine _ _, unchanged_raise _⟩
  · exact fetchHaltsAt_of_pc hLive hNext hPc (by decide)

/-- Settles O8: JMP is one write of PC, and at 0xFFF the second byte of the fetch is the one out of bounds. -/
theorem jmpSetsPc : Obligations.JmpSetsPc := by
  refine ⟨fun nnn s => ⟨encodes_of_wordNNN rfl rfl (by decide), ?_⟩, fun s hLive hNext hPc => ?_⟩
  · exact ⟨_, rfl, addrOperand_toNat nnn, unchanged_setPc _⟩
  · exact fetchHaltsAt_of_pc hLive hNext hPc (by decide)

/-! ## Conditional skips -/

/-- An instruction that answers `Skip()` under a test moves PC to the instruction after next exactly when the test's condition
holds, and changes nothing else (R138). -/
theorem exec_skip {i : Instr} {s : State} {test : Bool} {cond : Prop} [Decidable cond]
    (hExec : exec i s = .next (s.skipIf test)) (hTest : test = true ↔ cond) :
    ∃ t, exec i s = .next t ∧ t.pc = (if cond then s.pc + 2 else s.pc) ∧ Unchanged [.pc] s t := by
  rw [State.skipIf_eq] at hExec
  exact ⟨_, hExec, by simp [hTest], unchanged_setPc _⟩

/-- Settles O10: both forms are skips on the comparison of V[x] with kk. -/
theorem immediateSkips : Obligations.ImmediateSkips := by
  intro x kk s
  exact ⟨encodes_of_wordXKK rfl rfl (by decide), encodes_of_wordXKK rfl rfl (by decide),
    exec_skip rfl beq_iff_eq, exec_skip rfl bne_iff_ne⟩

/-- Settles O11: both forms are skips on the comparison of V[x] with V[y]; nothing asks for x and y to differ. -/
theorem registerSkips : Obligations.RegisterSkips := by
  intro x y s
  exact ⟨encodes_of_wordXYN rfl rfl (by decide), encodes_of_wordXYN rfl rfl (by decide),
    exec_skip rfl beq_iff_eq, exec_skip rfl bne_iff_ne⟩

end Sys2Proof.Proofs
end

section
/-! The ALU: the obligations of the family 42_alu. Every handler here is one write of V[x], or that write and then the flag. -/

namespace Sys2Proof.Proofs

open Sys2Proof.Machine

/-! ## What register writes leave unchanged -/

section Frames

variable {s : State}

theorem unchanged_setV (x : Reg) (b : Byte) : Unchanged [.v x] s (s.setV x b) := by
  intro p hp
  cases p with
  | v q =>
    have hq : q ≠ x := by simpa using hp
    simp [Part.same, hq]
  | _ => simp [Part.same]

theorem unchanged_setResultThenFlag (x : Reg) (b f : Byte) : Unchanged [.v x, .v VF] s (s.setResultThenFlag x b f) :=
  unchanged_trans (unchanged_mono (unchanged_setV x b) (by simp)) (unchanged_mono (unchanged_setV VF f) (by simp))

end Frames

/-! ## One write, or a result and then the flag -/

section Handlers

variable {i : Instr} {s : State} {x : Reg}

/-- An instruction that writes one register and nothing else. -/
theorem exec_setV {b : Byte} (hExec : exec i s = .next (s.setV x b)) :
    ∃ t, exec i s = .next t ∧ t.V x = b ∧ Unchanged [.v x] s t :=
  ⟨_, hExec, by simp, unchanged_setV x b⟩

/-- An instruction that writes its result and then the flag: with x = 0xF only the flag is left to see (R163). -/
theorem exec_setResultThenFlag {b f : Byte} (hExec : exec i s = .next (s.setResultThenFlag x b f)) :
    ∃ t, exec i s = .next t ∧ t.V VF = f ∧ (x ≠ VF → t.V x = b) ∧ Unchanged [.v x, .v VF] s t :=
  ⟨_, hExec, by simp, fun hx => by simp [hx], unchanged_setResultThenFlag x b f⟩

end Handlers

/-! ## Exact results narrowed mod 256, and their flags -/

/-- The byte of an exact integer result is that integer mod 256, a negative one too (R162). -/
theorem ofInt_toNat (n : Int) : ((BitVec.ofInt 8 n).toNat : Int) = n % 256 := by
  rw [BitVec.toNat_ofInt]
  omega

theorem carryFlag_eq (a b : Byte) : carryFlag a b = if a.toNat + b.toNat > 255 then 1 else 0 := by
  simp [carryFlag, flag]

theorem noBorrowFlag_eq (a b : Byte) : noBorrowFlag a b = if a.toNat ≥ b.toNat then 1 else 0 := by
  simp [noBorrowFlag, flag]

/-- The difference `a - b` into V[x], then VF for no borrow: SUB and SUBR differ only in which operand is `a` (R154, R155). -/
theorem exec_subtract {i : Instr} {s : State} {x : Reg} {a b : Byte}
    (hExec : exec i s = .next (s.setResultThenFlag x (BitVec.ofInt 8 (a.toNat - b.toNat)) (noBorrowFlag a b))) :
    ∃ t, exec i s = .next t ∧ t.V VF = (if a.toNat ≥ b.toNat then 1 else 0) ∧
      (x ≠ VF → ((t.V x).toNat : Int) = ((a.toNat : Int) - b.toNat) % 256) ∧ Unchanged [.v x, .v VF] s t := by
  obtain ⟨t, hNext, hFlag, hResult, hFrame⟩ := exec_setResultThenFlag hExec
  exact ⟨t, hNext, hFlag.trans (noBorrowFlag_eq a b), fun hx => by rw [hResult hx, ofInt_toNat], hFrame⟩

/-! ## Moves and arithmetic -/

/-- Settles O14: both are one register write, of the immediate or of V[y]. -/
theorem setAndSetrMove : Obligations.SetAndSetrMove := by
  intro x y kk s
  exact ⟨encodes_of_wordXKK rfl rfl (by decide), encodes_of_wordXYN rfl rfl (by decide), exec_setV rfl, exec_setV rfl⟩

/-- Settles O15: ADD is one register write, so VF is in the frame unless it is the destination. -/
theorem addWrapsWithoutFlag : Obligations.AddWrapsWithoutFlag := by
  intro x kk s
  refine ⟨encodes_of_wordXKK rfl rfl (by decide), ?_⟩
  obtain ⟨t, hNext, hResult, hFrame⟩ := exec_setV (i := .add x kk) (s := s) rfl
  exact ⟨t, hNext, by rw [hResult, BitVec.toNat_ofNat], hFrame⟩

/-- Settles O16: sum and carry are both of the operands before either write, so x = y and x or y = VF need no case. -/
theorem addrSetsCarry : Obligations.AddrSetsCarry := by
  intro x y s
  refine ⟨encodes_of_wordXYN rfl rfl (by decide), ?_⟩
  obtain ⟨t, hNext, hFlag, hResult, hFrame⟩ := exec_setResultThenFlag (i := .addr x y) (s := s) rfl
  exact ⟨t, hNext, hFlag.trans (carryFlag_eq _ _), fun hx => by rw [hResult hx, BitVec.toNat_ofNat], hFrame⟩

/-- Settles O17: the subtraction V[x] - V[y]. -/
theorem subSetsNoBorrow : Obligations.SubSetsNoBorrow := by
  intro x y s
  exact ⟨encodes_of_wordXYN rfl rfl (by decide), exec_subtract rfl⟩

/-- Settles O18: the subtraction V[y] - V[x]. -/
theorem subrSetsNoBorrow : Obligations.SubrSetsNoBorrow := by
  intro x y s
  exact ⟨encodes_of_wordXYN rfl rfl (by decide), exec_subtract rfl⟩

end Sys2Proof.Proofs
end

section
/-! The address register: the obligation of the family 43_index_memory. -/

namespace Sys2Proof.Proofs

open Sys2Proof.Machine

theorem unchanged_setI {s : State} (w : Word) : Unchanged [.i] s (s.setI w) := by
  intro p hp
  cases p with
  | i => simp at hp
  | _ => simp [Part.same]

/-- Settles O23: LDA is one write of I, with no check of the address before it (R180). -/
theorem ldaLoadsAddress : Obligations.LdaLoadsAddress := by
  intro nnn s
  refine ⟨encodes_of_wordNNN rfl rfl (by decide), s.setI (addrOperand nnn), rfl, ?_, unchanged_setI _⟩
  rw [State.setI_i, addrOperand_toNat]

end Sys2Proof.Proofs
end

section
/-! The display: the obligation of the family 44_display. -/

namespace Sys2Proof.Proofs

open Sys2Proof.Machine

theorem unchanged_setDisplay {s : State} (d : Display) : Unchanged [.display] s (s.setDisplay d) := by
  intro p hp
  cases p with
  | display => simp at hp
  | _ => simp [Part.same]

/-- Settles O30: CLS replaces the display by the cleared one, whose pixels do not depend on the old display (R200). -/
theorem clsClearsEveryPixel : Obligations.ClsClearsEveryPixel := by
  refine ⟨encodes_of_encode_toNat rfl, fun s => ⟨s.setDisplay (Display.clear s.display), rfl, fun x y => ?_,
    unchanged_setDisplay _⟩⟩
  rw [State.setDisplay_display, Display.get_clear]

end Sys2Proof.Proofs
end

section
/-! Keys and timers: the obligation of the family 45_keys_timers. -/

namespace Sys2Proof.Proofs

open Sys2Proof.Machine

/-- An instruction of format `g x kk` whose low byte `kk` is fixed, as its rule's Encoding line writes it. -/
theorem encodes_of_wordXKK_fixedLow {i : Instr} {g base : Nat} {x : Reg} {kk : Byte} (h : encode i = wordXKK g x kk)
    (hBase : base = g * 4096 + kk.toNat) (hg : g < 16) : Encodes i (base + 256 * x.val) :=
  encodes_of_encode_toNat (by rw [h, wordXKK_toNat hg]; omega)

theorem unchanged_setSt {s : State} (b : Byte) : Unchanged [.st] s (s.setSt b) := by
  intro p hp
  cases p with
  | st => simp at hp
  | _ => simp [Part.same]

/-! ## No operation an instruction uses reads ST

Each operation that branches takes the same branch whatever ST holds, and in every branch the writes are to other fields. -/

section SoundTimerUnread

variable (s : State) (b : Byte)

theorem skipIf_setSt (c : Bool) : (s.setSt b).skipIf c = (s.skipIf c).setSt b := by
  rw [State.skipIf_eq, State.skipIf_eq]
  rfl

theorem shift_setSt (x : Reg) (op out : Byte → Byte) : (s.setSt b).shift x op out = (s.shift x op out).setSt b := by
  unfold State.shift
  split <;> rfl

theorem storeAtI_setSt (bs : List Byte) : (s.setSt b).storeAtI bs = (s.storeAtI bs).setSt b := by
  by_cases h : bs.length = 0 ∨ s.i.toNat + bs.length ≤ memSize
  · rw [s.storeAtI_inBounds bs h, (s.setSt b).storeAtI_inBounds bs h]
    rfl
  · rw [s.storeAtI_outOfBounds bs h, (s.setSt b).storeAtI_outOfBounds bs h]
    rfl

theorem loadAtI_setSt (x : Reg) : (s.setSt b).loadAtI x = (s.loadAtI x).setSt b := by
  by_cases h : s.i.toNat + (x.val + 1) ≤ memSize
  · rw [s.loadAtI_inBounds x h, (s.setSt b).loadAtI_inBounds x h]
    rfl
  · rw [s.loadAtI_outOfBounds x h, (s.setSt b).loadAtI_outOfBounds x h]
    rfl

theorem keyTest_setSt (x : Reg) (op : KeyTest) (want : Bool) :
    (s.setSt b).keyTest x op want = (s.keyTest x op want).setSt b := by
  by_cases h : (s.V x).toNat < 16
  · rw [s.keyTest_inRange x op want h, (s.setSt b).keyTest_inRange x op want h]
    exact skipIf_setSt s.afterKeyQuery b _
  · rw [s.keyTest_outOfRange x op want h, (s.setSt b).keyTest_outOfRange x op want h]
    rfl

theorem execDraw_setSt (x y : Reg) (n : Rows) :
    execDraw x y n (s.setSt b) = mapNext (fun t => t.setSt b) (execDraw x y n s) := by
  by_cases h : n.val = 0 ∨ s.i.toNat + n.val ≤ memSize
  · rw [execDraw_inBounds s x y n h, execDraw_inBounds (s.setSt b) x y n h]
    rfl
  · rw [execDraw_outOfBounds s x y n h, execDraw_outOfBounds (s.setSt b) x y n h]
    rfl

theorem execRet_setSt : execRet (s.setSt b) = mapNext (fun t => t.setSt b) (execRet s) := by
  unfold execRet
  rw [State.setSt_stack]
  cases s.stack <;> rfl

theorem execCall_setSt (nnn : Addr) : execCall nnn (s.setSt b) = mapNext (fun t => t.setSt b) (execCall nnn s) := by
  have hFull : (s.setSt b).stackFull = s.stackFull := rfl
  unfold execCall
  rw [hFull]
  cases s.stackFull <;> rfl

theorem execLdkp_setSt (x : Reg) : execLdkp x (s.setSt b) = mapNext (fun t => t.setSt b) (execLdkp x s) := by
  have hPolled : (s.setSt b).polledKey = s.polledKey := rfl
  unfold execLdkp
  rw [hPolled]
  cases s.polledKey <;> rfl

/-- Every handler but STST's runs the same whatever ST holds and leaves it there (R224): those that branch by the lemmas above, the
others because they are one sequence of writes to other fields. -/
theorem exec_setSt {i : Instr} (hNotStst : ∀ x, i ≠ .stst x) :
    exec i (s.setSt b) = mapNext (fun t => t.setSt b) (exec i s) := by
  cases i with
  | stst x => exact absurd rfl (hNotStst x)
  | ret => exact execRet_setSt s b
  | call nnn => exact execCall_setSt s b nnn
  | se | sne | ser | sner => exact congrArg Host.Outcome.next (skipIf_setSt s b _)
  | shr | shl => exact congrArg Host.Outcome.next (shift_setSt s b _ _ _)
  | draw x y n => exact execDraw_setSt s b x y n
  | skp | sknp => exact congrArg Host.Outcome.next (keyTest_setSt s b _ _ _)
  | ldkp x => exact execLdkp_setSt s b x
  | stdr | strd => exact congrArg Host.Outcome.next (storeAtI_setSt s b _)
  | ldrd => exact congrArg Host.Outcome.next (loadAtI_setSt s b _)
  | cls | jmp | set | setr | add | addr | sub | subr | or | and | xor | lda | jmpo | rand | lddt | stdt | adda | ldsa => rfl

end SoundTimerUnread

/-- Settles O37: STST is one write of ST, which covers any earlier one, and no other handler's run depends on ST. -/
theorem ststWritesSoundTimerUnread : Obligations.StstWritesSoundTimerUnread := by
  refine ⟨fun x s => ⟨encodes_of_wordXKK_fixedLow rfl rfl (by decide), ?_⟩, fun i s b => exec_setSt s b, fun x s b => rfl⟩
  exact ⟨s.setSt (s.V x), rfl, State.setSt_st _ _, unchanged_setSt _⟩

end Sys2Proof.Proofs
end

section
/-! Timer ticks: the obligations of the family 60_exceptions. A tick takes its turn off the schedule and counts one register down. -/

namespace Sys2Proof.Proofs

open Sys2Proof.Machine

/-! ## What taking a turn and the two ticks leave unchanged -/

section Frames

variable {s : State}

theorem unchanged_afterEvent : Unchanged [.schedule] s s.afterEvent := by
  intro p hp
  cases p with
  | schedule => simp at hp
  | _ => simp [Part.same, State.afterEvent]

theorem unchanged_setDt (b : Byte) : Unchanged [.dt] s (s.setDt b) := by
  intro p hp
  cases p with
  | dt => simp at hp
  | _ => simp [Part.same]

theorem unchanged_delayTick : Unchanged [.dt, .schedule] s s.afterEvent.delayTick :=
  unchanged_trans (unchanged_mono unchanged_afterEvent (by simp)) (unchanged_mono (unchanged_setDt _) (by simp))

theorem unchanged_soundTick : Unchanged [.st, .schedule] s s.afterEvent.soundTick :=
  unchanged_trans (unchanged_mono unchanged_afterEvent (by simp)) (unchanged_mono (unchanged_setSt _) (by simp))

end Frames

/-! ## The step that runs a tick -/

/-- The countdown as R253 words it, by a test for zero: `countDown_toNat` says the same with truncated subtraction. -/
theorem countDown_toNat_ite (b : Byte) : (countDown b).toNat = if b.toNat > 0 then b.toNat - 1 else 0 := by
  rw [countDown_toNat]
  split <;> omega

/-- A live machine whose turn is a tick runs that tick after taking the turn (R255). -/
theorem step_of_tick {s : State} {k : Config.Tick} (hLive : Live s) (hNext : s.nextEvent = .tick k) :
    step s = runTick k s.afterEvent := by
  rw [step_of_live hLive, hNext, runEvent]

/-- Settles O48: the step is the taken turn and one write of DT. -/
theorem delayTickCountsDown : Obligations.DelayTickCountsDown := by
  intro s hLive hNext
  exact ⟨s.afterEvent.delayTick, step_of_tick hLive hNext, countDown_toNat_ite s.dt, unchanged_delayTick⟩

/-- Settles O49: the step is the taken turn and one write of ST. -/
theorem soundTickCountsDown : Obligations.SoundTickCountsDown := by
  intro s hLive hNext
  exact ⟨s.afterEvent.soundTick, step_of_tick hLive hNext, countDown_toNat_ite s.st, unchanged_soundTick⟩

end Sys2Proof.Proofs
end

section
/-! The encoding: decoder, encoder and opcode table say the same, and which words have no meaning (30_encoding.md). -/

namespace Sys2Proof.Proofs

/-! ## The two decode settings -/

theorem decode_false (w : Word) : decode false w = decodeStrict w := by
  unfold decode
  cases decodeStrict w <;> rfl

/-- LOOSE_DECODE changes no strict meaning (R78, R79). -/
theorem decode_of_strict {w : Word} {i : Instr} (loose : Bool) (h : decodeStrict w = some i) : decode loose w = some i := by
  rw [decode, h]

theorem decode_true_of_strict_none {w : Word} (h : decodeStrict w = none) : decode true w = decodeLooseOnly w := by
  rw [decode, h, if_pos rfl]

theorem decode_encode (loose : Bool) (i : Instr) : decode loose (encode i) = some i :=
  decode_of_strict loose (decodeStrict_encode i)

/-- Settles O1: strict decode reads every word the encoder writes, and loose decode keeps what strict decode reads. -/
theorem decodeEncodeRoundTrip : Obligations.DecodeEncodeRoundTrip := decode_encode

/-! ## A word is the word of its fields -/

section Fields

variable {w : Word} {g : Nat}

theorem topNibble_lt (w : Word) : topNibble w < 16 := Nat.mod_lt _ (by decide)

theorem wordNNN_of_group (hg : topNibble w = g) : wordNNN g (fieldNNN w) = w := by
  apply BitVec.eq_of_toNat_eq
  have hLt := topNibble_lt w
  have hw := w.isLt
  subst hg
  rw [wordNNN_toNat hLt]
  simp only [topNibble, fieldNNN, field, BitVec.toNat_ofNat]
  omega

theorem wordXKK_of_group (hg : topNibble w = g) : wordXKK g (fieldX w) (fieldKK w) = w := by
  apply BitVec.eq_of_toNat_eq
  have hLt := topNibble_lt w
  have hw := w.isLt
  subst hg
  rw [wordXKK_toNat hLt]
  simp only [topNibble, fieldX, fieldKK, field, BitVec.toNat_ofNat, Fin.ofNat]
  omega

theorem wordXYN_of_group (hg : topNibble w = g) : wordXYN g (fieldX w) (fieldY w) (fieldN w) = w := by
  apply BitVec.eq_of_toNat_eq
  have hLt := topNibble_lt w
  have hw := w.isLt
  subst hg
  rw [wordXYN_toNat hLt]
  simp only [topNibble, fieldX, fieldY, fieldN, field, Fin.ofNat]
  omega

/-- A group whose low byte is fixed. -/
theorem wordXKK_of_lowByte {kk : Byte} (hg : topNibble w = g) (hk : field w 7 0 = kk.toNat) :
    wordXKK g (fieldX w) kk = w := by
  have hKK : fieldKK w = kk := by rw [fieldKK, hk, BitVec.ofNat_toNat, BitVec.setWidth_eq]
  rw [← hKK, wordXKK_of_group hg]

/-- A group whose low nibble is fixed. -/
theorem wordXYN_of_lowNibble {n : Fin 16} (hg : topNibble w = g) (hn : field w 3 0 = n.val) :
    wordXYN g (fieldX w) (fieldY w) n = w := by
  have hN : fieldN w = n := by rw [fieldN, hn, Fin.ofNat_val_eq_self]
  rw [← hN, wordXYN_of_group hg]

/-- Group 0x0: the low twelve bits make the whole word. -/
theorem toNat_of_group0 (hg : topNibble w = 0x0) : w.toNat = field w 11 0 := by
  have hw := w.isLt
  simp only [topNibble, field] at hg ⊢
  omega

end Fields

/-! ## Every strictly decoded word is the word of its instruction -/

section StrictDecode

variable {w : Word} {i : Instr}

theorem encode_of_decodeGroup0 (hg : topNibble w = 0x0) (h : decodeGroup0 w = some i) : encode i = w := by
  have hw := toNat_of_group0 hg
  unfold decodeGroup0 at h
  split at h
  · next hn => cases h; exact BitVec.eq_of_toNat_eq (hw.trans hn).symm
  · next hn => cases h; exact BitVec.eq_of_toNat_eq (hw.trans hn).symm
  · cases h

theorem encode_of_decodeGroup8 (hg : topNibble w = 0x8) (h : decodeGroup8 w = some i) : encode i = w := by
  unfold decodeGroup8 at h
  split at h <;> cases h <;> exact wordXYN_of_lowNibble hg ‹_›

theorem encode_of_decodeGroupE (hg : topNibble w = 0xE) (h : decodeGroupE w = some i) : encode i = w := by
  unfold decodeGroupE at h
  split at h <;> cases h <;> exact wordXKK_of_lowByte hg ‹_›

theorem encode_of_decodeGroupF (hg : topNibble w = 0xF) (h : decodeGroupF w = some i) : encode i = w := by
  unfold decodeGroupF at h
  split at h <;> cases h <;> exact wordXKK_of_lowByte hg ‹_›

/-- The cases are the groups of R75, in the decoder's order. -/
theorem encode_of_decodeStrict (h : decodeStrict w = some i) : encode i = w := by
  unfold decodeStrict at h
  split at h
  · next hg => exact encode_of_decodeGroup0 hg h
  · next hg => cases h; exact wordNNN_of_group hg
  · next hg => cases h; exact wordNNN_of_group hg
  · next hg => cases h; exact wordXKK_of_group hg
  · next hg => cases h; exact wordXKK_of_group hg
  · next hg =>
    split at h
    · next hn => cases h; exact wordXYN_of_lowNibble hg hn
    · cases h
  · next hg => cases h; exact wordXKK_of_group hg
  · next hg => cases h; exact wordXKK_of_group hg
  · next hg => exact encode_of_decodeGroup8 hg h
  · next hg =>
    split at h
    · next hn => cases h; exact wordXYN_of_lowNibble hg hn
    · cases h
  · next hg => cases h; exact wordNNN_of_group hg
  · next hg => cases h; exact wordNNN_of_group hg
  · next hg => cases h; exact wordXKK_of_group hg
  · next hg => cases h; exact wordXYN_of_group hg
  · next hg => exact encode_of_decodeGroupE hg h
  · next hg => exact encode_of_decodeGroupF hg h
  · cases h

end StrictDecode

/-- Settles O2: the fields the decoder reads make up the whole word again. -/
theorem strictDecodeLosesNoBit : Obligations.StrictDecodeLosesNoBit := by
  intro w i h
  rw [decode_false] at h
  exact encode_of_decodeStrict h

/-! ## The decoder is the opcode table -/

section Table

variable {w : Word} {i : Instr} {g : Nat}

/-- A row that fixes the group only. -/
theorem group_of_inRow (h : inRow [⟨15, 12, g⟩] w = true) : topNibble w = g := by
  simpa [inRow, topNibble] using h

/-- A row that fixes the group and a low field. -/
theorem group_and_low_of_inRow {hi v : Nat} (h : inRow [⟨15, 12, g⟩, ⟨hi, 0, v⟩] w = true) :
    topNibble w = g ∧ field w hi 0 = v := by
  simpa [inRow, topNibble] using h

/-- A row that fixes the whole word. -/
theorem eq_ofNat_of_inRow {v : Nat} (h : inRow [⟨15, 0, v⟩] w = true) : w = BitVec.ofNat 16 v := by
  have hv : field w 15 0 = v := by simpa [inRow] using h
  rw [← hv, field, Nat.pow_zero, Nat.div_one, Nat.mod_eq_of_lt w.isLt, BitVec.ofNat_toNat, BitVec.setWidth_eq]

/-- The encoder writes a word of the instruction's own row. -/
theorem inRow_encode (i : Instr) : inRow i.row (encode i) = true := by
  cases i with
  | cls | ret => rfl
  | jmp | call | lda | jmpo => exact wordNNN_inRow (by decide) _
  | se | sne | set | add | rand => exact wordXKK_inRow (by decide) _ _
  | ser | sner | setr | addr | sub | subr | or | and | xor | shr | shl => exact wordXYN_inRow_low (by decide) _ _ _
  | draw => exact wordXYN_inRow (by decide) _ _ _
  | skp | sknp | lddt | stdt | stst | ldkp | adda | ldsa | stdr | ldrd | strd => exact wordXKK_inRow_low (by decide) _ _

/-- A word of a kind's row decodes to an instruction of that kind, whose operands are the word's own fields. -/
theorem exists_decodeStrict_of_inRow (h : inRow i.row w = true) : ∃ j, decodeStrict w = some j ∧ j.row = i.row := by
  cases i with
  | cls | ret =>
    rw [eq_ofNat_of_inRow h]
    exact ⟨_, rfl, rfl⟩
  | jmp | call | se | sne | set | add | lda | jmpo | rand | draw =>
    have hg := group_of_inRow h
    simp [decodeStrict, hg, Instr.row]
  | ser | sner =>
    obtain ⟨hg, hn⟩ := group_and_low_of_inRow h
    simp [decodeStrict, hg, hn, Instr.row]
  | setr | addr | sub | subr | or | and | xor | shr | shl =>
    obtain ⟨hg, hn⟩ := group_and_low_of_inRow h
    simp [decodeStrict, decodeGroup8, hg, hn, Instr.row]
  | skp | sknp =>
    obtain ⟨hg, hn⟩ := group_and_low_of_inRow h
    simp [decodeStrict, decodeGroupE, hg, hn, Instr.row]
  | lddt | stdt | stst | ldkp | adda | ldsa | stdr | ldrd | strd =>
    obtain ⟨hg, hn⟩ := group_and_low_of_inRow h
    simp [decodeStrict, decodeGroupF, hg, hn, Instr.row]

end Table

/-- Settles O3: the word of a decoded instruction lies in its row; a word of two kinds' rows decodes to one instruction, whose
row is both. -/
theorem decoderIsTheOpcodeTable : Obligations.DecoderIsTheOpcodeTable := by
  refine ⟨fun w i h => ?_, fun w i h => ?_, fun w i j hi hj => ?_⟩
  · rw [← strictDecodeLosesNoBit w i h]
    exact inRow_encode i
  · rw [decode_false]
    exact exists_decodeStrict_of_inRow h
  · obtain ⟨i', hDecI, hRowI⟩ := exists_decodeStrict_of_inRow hi
    obtain ⟨j', hDecJ, hRowJ⟩ := exists_decodeStrict_of_inRow hj
    have hSame : i' = j' := Option.some.inj (hDecI.symm.trans hDecJ)
    rw [← hRowI, ← hRowJ, hSame]

/-! ## The words without a meaning -/

section Unsupported

variable {w : Word}

theorem decodeGroup0_eq_none_iff (hg : topNibble w = 0x0) : decodeGroup0 w = none ↔ w ≠ 0x00E0 ∧ w ≠ 0x00EE := by
  have hw := toNat_of_group0 hg
  rw [← BitVec.toNat_inj.ne, ← BitVec.toNat_inj.ne, hw]
  unfold decodeGroup0
  split <;> simp_all

theorem decodeGroup8_eq_none_iff :
    decodeGroup8 w = none ↔ field w 3 0 ∈ [0x8, 0x9, 0xA, 0xB, 0xC, 0xD, 0xF] := by
  have hn : field w 3 0 < 16 := Nat.mod_lt _ (by decide)
  unfold decodeGroup8
  split
  case h_10 =>
    simp only [imp_false] at *
    simp
    omega
  all_goals simp [*]

theorem decodeGroupE_eq_none_iff : decodeGroupE w = none ↔ field w 7 0 ∉ [0x9E, 0xA1] := by
  unfold decodeGroupE
  split <;> simp_all

theorem decodeGroupF_eq_none_iff :
    decodeGroupF w = none ↔ field w 7 0 ∉ [0x07, 0x0A, 0x15, 0x18, 0x1E, 0x29, 0x33, 0x55, 0x65] := by
  unfold decodeGroupF
  split <;> simp_all

end Unsupported

/-- Settles O4: six groups can refuse a word, each as said of it above; the ten others refuse none. -/
theorem unsupportedSpaceStrict : Obligations.UnsupportedSpaceStrict := by
  intro w
  have hLt := topNibble_lt w
  rw [decode_false]
  unfold decodeStrict
  change _ ↔ (topNibble w = _ ∧ _) ∨ (topNibble w = _ ∧ _) ∨ (topNibble w = _ ∧ _) ∨ (topNibble w = _ ∧ _) ∨
    (topNibble w = _ ∧ _) ∨ (topNibble w = _ ∧ _)
  split
  case h_1 hg => simp only [decodeGroup0_eq_none_iff hg, hg]; simp
  case h_9 hg => rw [decodeGroup8_eq_none_iff]; simp [hg]
  case h_15 hg => rw [decodeGroupE_eq_none_iff]; simp [hg]
  case h_16 hg => rw [decodeGroupF_eq_none_iff]; simp [hg]
  case h_17 =>
    simp only [imp_false] at *
    omega
  all_goals simp [*]

/-! ## Loose decode -/

section LooseDecode

variable {w : Word}

/-- Group 0x5 under loose decode: the low nibble is ignored (R79). -/
theorem decode_true_group5 (hg : topNibble w = 0x5) : decode true w = some (.ser (fieldX w) (fieldY w)) := by
  by_cases hn : field w 3 0 = 0
  · exact decode_of_strict true (by simp [decodeStrict, hg, hn])
  · rw [decode_true_of_strict_none (by simp [decodeStrict, hg, hn])]
    simp [decodeLooseOnly, hg]

/-- Group 0x9 under loose decode: the low nibble is ignored (R79). -/
theorem decode_true_group9 (hg : topNibble w = 0x9) : decode true w = some (.sner (fieldX w) (fieldY w)) := by
  by_cases hn : field w 3 0 = 0
  · exact decode_of_strict true (by simp [decodeStrict, hg, hn])
  · rw [decode_true_of_strict_none (by simp [decodeStrict, hg, hn])]
    simp [decodeLooseOnly, hg]

/-- Loose decode adds nothing outside groups 0x0, 0x5 and 0x9, and in group 0x0 only the low bytes of CLS and RET. -/
theorem decodeLooseOnly_eq_none (h0 : ¬(topNibble w = 0x0 ∧ (field w 7 0 = 0xE0 ∨ field w 7 0 = 0xEE)))
    (h5 : topNibble w ≠ 0x5) (h9 : topNibble w ≠ 0x9) : decodeLooseOnly w = none := by
  unfold decodeLooseOnly
  split
  · next hg =>
    split
    · next hk => exact absurd ⟨hg, .inl hk⟩ h0
    · next hk => exact absurd ⟨hg, .inr hk⟩ h0
    · rfl
  · next hg => exact absurd hg h5
  · next hg => exact absurd hg h9
  · rfl

end LooseDecode

/-- Settles O5: where strict decode answers loose decode agrees, and elsewhere it is `decodeLooseOnly`. -/
theorem looseDecodeAddsIgnoredBits : Obligations.LooseDecodeAddsIgnoredBits := by
  simp only [Obligations.LooseDecodeAddsIgnoredBits, decode_false]
  refine ⟨fun w i h => decode_of_strict true h, fun w h hg hk => ?_, fun w h hg hk => ?_,
    fun w hg => decode_true_group5 hg, fun w hg => decode_true_group9 hg, fun w h h0 h5 h9 => ?_⟩
  · rw [decode_true_of_strict_none h]
    simp [decodeLooseOnly, topNibble, hg, hk]
  · rw [decode_true_of_strict_none h]
    simp [decodeLooseOnly, topNibble, hg, hk]
  · rw [decode_true_of_strict_none h]
    exact decodeLooseOnly_eq_none h0 h5 h9

/-- Settles O6: the words are concrete, so the decoder is evaluated on each. -/
theorem sampleWordsDecode : Obligations.SampleWordsDecode := by
  unfold Obligations.SampleWordsDecode
  decide

end Sys2Proof.Proofs
end

section
/-! The handlers as a whole: each answers a next state, writes only the parts its rule names, and keeps the engine or halts it on a
fatal condition. -/

namespace Sys2Proof.Proofs

open Sys2Proof.Machine

/-! ## What the remaining updates leave unchanged -/

section Frames

variable {s : State}

theorem unchanged_setMem (m : Memory) : Unchanged [.mem] s (s.setMem m) := by
  intro p hp
  cases p with
  | mem => simp at hp
  | _ => simp [Part.same]

theorem unchanged_countTorn : Unchanged [.torn] s s.countTorn := by
  intro p hp
  cases p with
  | torn => simp at hp
  | _ => simp [Part.same]

theorem unchanged_afterKeyQuery : Unchanged [.keypad] s s.afterKeyQuery := by
  intro p hp
  cases p with
  | keypad => simp at hp
  | _ => simp [Part.same]

theorem unchanged_afterPoll : Unchanged [.polls] s s.afterPoll := by
  intro p hp
  cases p with
  | polls => simp at hp
  | _ => simp [Part.same]

theorem unchanged_afterRandom : Unchanged [.random] s s.afterRandom := by
  intro p hp
  cases p with
  | random => simp at hp
  | _ => simp [Part.same]

theorem unchanged_setOpcode (o : Option Word) : Unchanged [.opcode] s (s.setOpcode o) := by
  intro p hp
  cases p with
  | opcode => simp at hp
  | _ => simp [Part.same]

theorem unchanged_setEngine (e : Engine) : Unchanged [.engine] s (s.setEngine e) := by
  intro p hp
  cases p with
  | engine => simp at hp
  | _ => simp [Part.same]

@[simp] theorem mem_partsUpTo {x : Reg} {p : Part} : p ∈ partsUpTo x ↔ ∃ r, r ≤ x ∧ Part.v r = p := by
  simp [partsUpTo]

/-- A load takes registers up to V[x] and no other part. -/
theorem unchanged_setRegs_loadedRegs (x : Reg) (take : Nat → Bool) :
    Unchanged (partsUpTo x) s (s.setRegs (s.loadedRegs x take)) := by
  intro p hp
  cases p with
  | v r =>
    have hr : ¬ r ≤ x := by simpa using hp
    simp [Part.same, State.loadedRegs_get, hr]
  | _ => simp [Part.same]

/-- An update after an update: what the two may write is what either may. -/
theorem unchanged_append {es es' : List Part} {t u : State} (hst : Unchanged es s t) (htu : Unchanged es' t u) :
    Unchanged (es ++ es') s u :=
  unchanged_trans (unchanged_mono hst (by simp)) (unchanged_mono htu (by simp))

end Frames

/-! ## Shared operations -/

section Operations

variable (s : State)

theorem unchanged_skipIf (c : Bool) : Unchanged [.pc] s (s.skipIf c) := by
  rw [State.skipIf_eq]
  exact unchanged_setPc _

theorem unchanged_shift (x : Reg) (op out : Byte → Byte) : Unchanged [.v x, .v VF] s (s.shift x op out) := by
  unfold State.shift
  split
  · exact unchanged_mono (unchanged_setV VF _) (by simp)
  · exact unchanged_mono (unchanged_append (unchanged_setV VF _) (unchanged_setV x _)) (by simp)

/-- A store writes memory; out of bounds it also halts and is counted. -/
theorem unchanged_storeAtI (bs : List Byte) : Unchanged [.mem, .engine, .torn] s (s.storeAtI bs) := by
  by_cases h : bs.length = 0 ∨ s.i.toNat + bs.length ≤ memSize
  · rw [s.storeAtI_inBounds bs h]
    exact unchanged_mono (unchanged_setMem _) (by simp)
  · rw [s.storeAtI_outOfBounds bs h]
    exact unchanged_mono (unchanged_append (unchanged_append (unchanged_setMem _) unchanged_countTorn) (unchanged_raise _))
      (by simp)

/-- A load writes V[0] to V[x]; out of bounds it also halts and is counted. -/
theorem unchanged_loadAtI (x : Reg) : Unchanged ([.engine, .torn] ++ partsUpTo x) s (s.loadAtI x) := by
  by_cases h : s.i.toNat + (x.val + 1) ≤ memSize
  · rw [s.loadAtI_inBounds x h]
    exact unchanged_mono (unchanged_setRegs_loadedRegs x _) (by simp)
  · rw [s.loadAtI_outOfBounds x h]
    refine unchanged_mono (unchanged_append (unchanged_append (unchanged_setRegs_loadedRegs x _) unchanged_countTorn)
      (unchanged_raise _)) ?_
    intro p
    simp
    tauto

theorem unchanged_keyTest (x : Reg) (op : KeyTest) (want : Bool) : Unchanged [.pc, .keypad, .engine] s (s.keyTest x op want) := by
  by_cases h : (s.V x).toNat < 16
  · rw [s.keyTest_inRange x op want h]
    exact unchanged_mono (unchanged_append unchanged_afterKeyQuery (unchanged_skipIf _ _)) (by simp)
  · rw [s.keyTest_outOfRange x op want h]
    exact unchanged_mono (unchanged_raise _) (by simp)

/-! Those that can halt keep the engine state or raise a fatal condition. -/

theorem storeAtI_engine (bs : List Byte) : (s.storeAtI bs).engine = s.engine ∨ ∃ d, HaltedOn d (s.storeAtI bs) := by
  by_cases h : bs.length = 0 ∨ s.i.toNat + bs.length ≤ memSize
  · exact .inl (by rw [s.storeAtI_inBounds bs h, State.setMem_engine])
  · exact .inr ⟨_, by rw [s.storeAtI_outOfBounds bs h]; exact State.raise_engine _ _⟩

theorem loadAtI_engine (x : Reg) : (s.loadAtI x).engine = s.engine ∨ ∃ d, HaltedOn d (s.loadAtI x) := by
  by_cases h : s.i.toNat + (x.val + 1) ≤ memSize
  · exact .inl (by rw [s.loadAtI_inBounds x h, State.setRegs_engine])
  · exact .inr ⟨_, by rw [s.loadAtI_outOfBounds x h]; exact State.raise_engine _ _⟩

theorem keyTest_engine (x : Reg) (op : KeyTest) (want : Bool) :
    (s.keyTest x op want).engine = s.engine ∨ ∃ d, HaltedOn d (s.keyTest x op want) := by
  by_cases h : (s.V x).toNat < 16
  · exact .inl (by rw [s.keyTest_inRange x op want h, State.skipIf_eq, State.setPc_engine, State.afterKeyQuery_engine])
  · exact .inr ⟨_, by rw [s.keyTest_outOfRange x op want h]; exact State.raise_engine _ _⟩

end Operations

/-! ## The handlers that branch, by their branches -/

section Branches

variable {s t : State}

/-- RET's two answers (R130). -/
theorem exec_ret_cases (h : exec .ret s = .next t) :
    (s.stack = [] ∧ t = s.raise (.stackUnderflow (s.pc - 2))) ∨
    (∃ w rest, s.stack = w :: rest ∧ t = (s.setStack rest).setPc w) := by
  cases hStack : s.stack with
  | nil => cases (exec_ret_of_nil hStack).symm.trans h; exact .inl ⟨rfl, rfl⟩
  | cons w rest => cases (exec_ret_of_cons hStack).symm.trans h; exact .inr ⟨w, rest, rfl, rfl⟩

/-- A full stack is one with as many entries as a finite STACK_DEPTH (R29). -/
theorem stackFull_iff : s.stackFull = true ↔ s.params.stackDepth = .limit s.stack.length := by
  unfold State.stackFull
  cases s.params.stackDepth with
  | unbounded => simp
  | limit d => simp only [beq_iff_eq, Config.StackDepth.limit.injEq]; exact eq_comm

/-- CALL's two answers (R132). -/
theorem exec_call_cases {nnn : Addr} (h : exec (.call nnn) s = .next t) :
    (s.params.stackDepth = .limit s.stack.length ∧ t = s.raise (.stackOverflow s.instrAddr)) ∨
    (s.params.stackDepth ≠ .limit s.stack.length ∧ t = (s.push s.pc).setPc (addrOperand nnn)) := by
  cases h
  by_cases hFull : s.stackFull = true
  · exact .inl ⟨stackFull_iff.1 hFull, if_pos hFull⟩
  · exact .inr ⟨fun hLimit => hFull (stackFull_iff.2 hLimit), if_neg hFull⟩

/-- DRAW's two answers (R201, R249). -/
theorem exec_draw_cases {x y : Reg} {n : Rows} (h : exec (.draw x y n) s = .next t) :
    (DataInBounds s n.val ∧ t = (s.setDisplay (s.drawn x y n.val).1).setFlag (flag (s.drawn x y n.val).2)) ∨
    (¬ DataInBounds s n.val ∧
      t = (((s.setDisplay (Display.mix s.keepsNew s.display (s.drawn x y (s.rowsInRange n.val)).1)).setFlag
        (s.tornFlag (s.drawn x y (s.rowsInRange n.val)).2)).countTorn).raise
          (.memOob .read (max s.i.toNat memSize) s.instrAddr)) := by
  by_cases hIn : DataInBounds s n.val
  · cases (execDraw_inBounds s x y n hIn).symm.trans h; exact .inl ⟨hIn, rfl⟩
  · cases (execDraw_outOfBounds s x y n hIn).symm.trans h; exact .inr ⟨hIn, rfl⟩

/-- LDKP's two answers (R225). -/
theorem exec_ldkp_cases {x : Reg} (h : exec (.ldkp x) s = .next t) :
    (s.polledKey = none ∧ t = s.afterPoll.setPc (s.pc - 2)) ∨
    (∃ k, s.polledKey = some k ∧ t = s.afterPoll.setV x (BitVec.ofNat 8 k.val)) := by
  rw [exec, execLdkp] at h
  cases hKey : s.polledKey with
  | none => rw [hKey] at h; cases h; exact .inl ⟨rfl, rfl⟩
  | some k => rw [hKey] at h; cases h; exact .inr ⟨k, rfl, rfl⟩

end Branches

/-! ## Every handler answers, and writes only what it may -/

section Exec

variable {i : Instr} {s t : State}

/-- No handler stops the machine without a state: only RET's answer is not a next state at sight. -/
theorem exec_total (i : Instr) (s : State) : ∃ t, exec i s = .next t := by
  cases i with
  | ret =>
    cases hStack : s.stack with
    | nil => exact ⟨_, exec_ret_of_nil hStack⟩
    | cons w rest => exact ⟨_, exec_ret_of_cons hStack⟩
  | _ => exact ⟨_, rfl⟩

theorem exec_ret_frame (h : exec .ret s = .next t) : Unchanged [.pc, .stack, .engine] s t := by
  obtain ⟨-, rfl⟩ | ⟨w, rest, -, rfl⟩ := exec_ret_cases h
  · exact unchanged_mono (unchanged_raise _) (by simp)
  · exact unchanged_mono (unchanged_append (unchanged_setStack _) (unchanged_setPc _)) (by simp)

theorem unchanged_push_setPc (w w' : Word) : Unchanged [.pc, .stack] s ((s.push w).setPc w') :=
  unchanged_mono (unchanged_append (unchanged_setStack _) (unchanged_setPc _)) (by simp)

theorem exec_call_frame {nnn : Addr} (h : exec (.call nnn) s = .next t) : Unchanged [.pc, .stack, .engine] s t := by
  obtain ⟨-, rfl⟩ | ⟨-, rfl⟩ := exec_call_cases h
  · exact unchanged_mono (unchanged_raise _) (by simp)
  · exact unchanged_mono (unchanged_push_setPc _ _) (by simp)

theorem unchanged_setDisplay_setFlag (d : Display) (b : Byte) :
    Unchanged [.display, .v VF] s ((s.setDisplay d).setFlag b) :=
  unchanged_append (unchanged_setDisplay d) (unchanged_setV VF b)

theorem exec_draw_frame {x y : Reg} {n : Rows} (h : exec (.draw x y n) s = .next t) :
    Unchanged [.display, .v VF, .engine, .torn] s t := by
  obtain ⟨-, rfl⟩ | ⟨-, rfl⟩ := exec_draw_cases h
  · exact unchanged_mono (unchanged_setDisplay_setFlag _ _) (by simp)
  · exact unchanged_mono (unchanged_append (unchanged_append (unchanged_setDisplay_setFlag _ _) unchanged_countTorn)
      (unchanged_raise _)) (by simp)

theorem exec_ldkp_frame {x : Reg} (h : exec (.ldkp x) s = .next t) : Unchanged [.pc, .v x, .polls] s t := by
  obtain ⟨-, rfl⟩ | ⟨k, -, rfl⟩ := exec_ldkp_cases h
  · exact unchanged_mono (unchanged_append unchanged_afterPoll (unchanged_setPc _)) (by simp)
  · exact unchanged_mono (unchanged_append unchanged_afterPoll (unchanged_setV x _)) (by simp)

/-- What a handler may write covers what it changed. -/
theorem exec_frame (h : exec i s = .next t) : Unchanged i.mayWrite s t := by
  cases i with
  | ret => exact exec_ret_frame h
  | call nnn => exact exec_call_frame h
  | draw x y n => exact exec_draw_frame h
  | ldkp x => exact exec_ldkp_frame h
  | cls => cases h; exact unchanged_setDisplay _
  | jmp | jmpo => cases h; exact unchanged_setPc _
  | se | sne | ser | sner => cases h; exact unchanged_skipIf s _
  | set x | setr x | add x | or x | and x | xor x | lddt x => cases h; exact unchanged_setV x _
  | addr x | sub x | subr x => cases h; exact unchanged_setResultThenFlag x _ _
  | shr x | shl x => cases h; exact unchanged_shift s x _ _
  | lda | adda | ldsa => cases h; exact unchanged_setI _
  | rand x =>
    cases h
    exact unchanged_mono (unchanged_append unchanged_afterRandom (unchanged_setV x _)) (by simp [Instr.mayWrite])
  | skp | sknp => cases h; exact unchanged_keyTest s _ _ _
  | stdt => cases h; exact unchanged_setDt _
  | stst => cases h; exact unchanged_setSt _
  | stdr | strd => cases h; exact unchanged_storeAtI s _
  | ldrd x => cases h; exact unchanged_loadAtI s x

/-- The parts that belong to the host's side of the machine and to the cycle around the handler. -/
def hostParts : List Part := [.opcode, .context, .observers, .params, .schedule, .halts]

theorem hostPart_notMem_mayWrite {p : Part} (hp : p ∈ hostParts) : p ∉ i.mayWrite := by
  simp only [hostParts, List.mem_cons, List.not_mem_nil, or_false] at hp
  rcases hp with rfl | rfl | rfl | rfl | rfl | rfl <;> cases i <;> simp [Instr.mayWrite]

/-- No handler writes a host part. -/
theorem exec_hostPart {p : Part} (hp : p ∈ hostParts) (h : exec i s = .next t) : p.same s t :=
  exec_frame h p (hostPart_notMem_mayWrite hp)

theorem exec_opcode (h : exec i s = .next t) : t.opcode = s.opcode := exec_hostPart (p := .opcode) (by simp [hostParts]) h

theorem exec_context (h : exec i s = .next t) : t.context = s.context := exec_hostPart (p := .context) (by simp [hostParts]) h

theorem exec_observers (h : exec i s = .next t) : t.observers = s.observers :=
  exec_hostPart (p := .observers) (by simp [hostParts]) h

theorem exec_params (h : exec i s = .next t) : t.params = s.params := exec_hostPart (p := .params) (by simp [hostParts]) h

theorem exec_schedule (h : exec i s = .next t) : t.schedule = s.schedule :=
  exec_hostPart (p := .schedule) (by simp [hostParts]) h

theorem exec_halts (h : exec i s = .next t) : t.halts = s.halts := exec_hostPart (p := .halts) (by simp [hostParts]) h

/-- A handler keeps the engine state or halts on a fatal condition: those that may not write the engine keep it by their frame. -/
theorem exec_engine (h : exec i s = .next t) : t.engine = s.engine ∨ ∃ d, HaltedOn d t := by
  cases i with
  | ret =>
    obtain ⟨-, rfl⟩ | ⟨w, rest, -, rfl⟩ := exec_ret_cases h
    · exact .inr ⟨_, State.raise_engine _ _⟩
    · exact .inl rfl
  | call nnn =>
    obtain ⟨-, rfl⟩ | ⟨-, rfl⟩ := exec_call_cases h
    · exact .inr ⟨_, State.raise_engine _ _⟩
    · exact .inl rfl
  | draw x y n =>
    obtain ⟨-, rfl⟩ | ⟨-, rfl⟩ := exec_draw_cases h
    · exact .inl rfl
    · exact .inr ⟨_, State.raise_engine _ _⟩
  | skp | sknp => cases h; exact keyTest_engine s _ _ _
  | stdr | strd => cases h; exact storeAtI_engine s _
  | ldrd x => cases h; exact loadAtI_engine s x
  | _ => exact .inl (exec_frame h .engine (by simp [Instr.mayWrite]))

end Exec

/-- Settles O51: `exec_frame`, whose cases are the handlers and whose parts are the frames of the operations they share. -/
theorem handlersWriteOnlyTheirParts : Obligations.HandlersWriteOnlyTheirParts := fun _ _ _ h => exec_frame h

end Sys2Proof.Proofs
end

section
/-! The cycle and the step: what each kind of step answers, and what every step keeps (40_cycle.md, 60_exceptions.md). -/

namespace Sys2Proof.Proofs

open Sys2Proof.Machine

/-! ## The end of a cycle -/

section FinishCycle

variable {s : State} (w : Word)

/-- After a fatal condition there is neither snapshot nor notification (R116). -/
theorem finishCycle_of_halted (h : s.engine.isHalted = true) : s.finishCycle w = s := by
  rw [State.finishCycle, if_pos h]

theorem finishCycle_of_live (h : Live s) : s.finishCycle w = s.notify w := by
  rw [State.finishCycle, if_neg (by rw [h]; simp)]

theorem finishCycle_observers_length : (s.finishCycle w).observers.length = s.observers.length := by
  unfold State.finishCycle
  split <;> simp

theorem finishCycle_engine_cases : (s.finishCycle w).engine = s.engine ∨ (s.finishCycle w).engine = .halted .observer := by
  unfold State.finishCycle
  split
  · exact .inl rfl
  · rw [State.notify_engine]
    split
    · exact .inr rfl
    · exact .inl rfl

theorem unchanged_notify : Unchanged [.context, .observers, .halts, .engine] s (s.notify w) := by
  intro p hp
  cases p with
  | context | observers | halts | engine => simp at hp
  | _ => simp [Part.same]

end FinishCycle

/-! ## The three kinds of cycle -/

section Cycle

variable {s u : State} {i : Instr}

theorem unchanged_advance : Unchanged [.opcode, .pc] s s.advance :=
  unchanged_append (unchanged_setOpcode _) (unchanged_setPc _)

/-- While a handler runs A is the address its opcode was fetched from (R106). -/
theorem advance_instrAddr : s.advance.instrAddr = s.pc := BitVec.add_sub_cancel _ _

/-- The opcode has the byte at PC in its high half (R51). -/
theorem joinBytes_toNat (hi lo : Byte) : (joinBytes hi lo).toNat = hi.toNat * 256 + lo.toNat := by
  have := hi.isLt
  have := lo.isLt
  rw [joinBytes, BitVec.toNat_ofNat]
  omega

/-- A cycle whose fetch is out of memory (R105). -/
theorem step_of_fetchOut (hLive : Live s) (hNext : s.nextEvent = .tick .cycle) (hOut : ¬ s.pc.toNat + 1 < memSize) :
    step s = .next (s.afterEvent.raise (.memOob .fetch (max s.pc.toNat memSize) s.pc)) := by
  rw [step_of_tick hLive hNext, runTick, execCycle, s.afterEvent.fetchOutOfRange_some hOut]
  rfl

/-- A cycle whose fetch succeeds dispatches the opcode in the state after the advance (R106, R107). -/
theorem step_of_fetch (hLive : Live s) (hNext : s.nextEvent = .tick .cycle) (hFetch : FetchInBounds s) :
    step s = completeCycle s.opcodeAtPc (dispatch s.opcodeAtPc s.afterEvent.advance) := by
  rw [step_of_tick hLive hNext, runTick, execCycle, s.afterEvent.fetchOutOfRange_none hFetch]
  rfl

/-- A cycle that fetched an Unsupported word (R108). -/
theorem step_of_unsupported (hLive : Live s) (hNext : s.nextEvent = .tick .cycle) (hFetch : FetchInBounds s)
    (hDec : decode s.params.looseDecode s.opcodeAtPc = none) :
    step s = .next (s.afterEvent.advance.raise (.unsupported s.opcodeAtPc s.pc)) := by
  have hDec' : decode s.afterEvent.advance.params.looseDecode s.opcodeAtPc = none := hDec
  rw [step_of_fetch hLive hNext hFetch, dispatch, hDec', advance_instrAddr]
  rfl

/-- A cycle that fetched an instruction runs its handler and then ends (R107, R115). -/
theorem step_of_decoded (hLive : Live s) (hNext : s.nextEvent = .tick .cycle) (hFetch : FetchInBounds s)
    (hDec : decode s.params.looseDecode s.opcodeAtPc = some i) :
    step s = completeCycle s.opcodeAtPc (exec i s.afterEvent.advance) := by
  have hDec' : decode s.afterEvent.advance.params.looseDecode s.opcodeAtPc = some i := hDec
  rw [step_of_fetch hLive hNext hFetch, dispatch, hDec']

theorem step_of_exec (hLive : Live s) (hNext : s.nextEvent = .tick .cycle) (hFetch : FetchInBounds s)
    (hDec : decode s.params.looseDecode s.opcodeAtPc = some i) (hExec : exec i s.afterEvent.advance = .next u) :
    step s = .next (u.finishCycle s.opcodeAtPc) := by
  rw [step_of_decoded hLive hNext hFetch hDec, hExec, completeCycle]

end Cycle

/-- Settles O39: `step_of_decoded`, and the frame of taking the turn and advancing. -/
theorem stepRunsDecodedInstruction : Obligations.StepRunsDecodedInstruction := by
  intro s i hLive hNext hFetch hDec
  exact ⟨step_of_decoded hLive hNext hFetch hDec, rfl, rfl, joinBytes_toNat _ _,
    unchanged_mono (unchanged_append unchanged_afterEvent unchanged_advance) (by simp)⟩

/-- Settles O41: the first failing address is PC or 0x1000, whichever is higher; otherwise the opcode is kept by the advance and no
later part of the cycle writes it. -/
theorem fetchReadsBigEndianOrHalts : Obligations.FetchReadsBigEndianOrHalts := by
  refine ⟨fun s hLive hNext hOut => ?_, fun s t hLive hNext hFetch hStep => ?_⟩
  · have hAddr : (if 4096 ≤ s.pc.toNat then s.pc.toNat else s.pc.toNat + 1) = max s.pc.toNat memSize := by
      simp only [memSize]
      split <;> omega
    rw [hAddr]
    exact ⟨_, step_of_fetchOut hLive hNext (by simp only [memSize]; omega), State.raise_engine _ _,
      unchanged_mono (unchanged_append unchanged_afterEvent (unchanged_raise _)) (by simp)⟩
  · refine ⟨s.opcodeAtPc, ?_, joinBytes_toNat _ _⟩
    cases hDec : decode s.params.looseDecode s.opcodeAtPc with
    | none => cases (step_of_unsupported hLive hNext hFetch hDec).symm.trans hStep; rfl
    | some i =>
      obtain ⟨u, hExec⟩ := exec_total i s.afterEvent.advance
      have hKept : u.opcode = some s.opcodeAtPc := (exec_opcode hExec :)
      cases (step_of_exec hLive hNext hFetch hDec hExec).symm.trans hStep
      rw [State.finishCycle_opcode, hKept]

/-- Settles O42: the step is the turn, the advance and the fatal condition. -/
theorem unsupportedWordHalts : Obligations.UnsupportedWordHalts := by
  intro s hLive hNext hFetch hDec
  exact ⟨_, step_of_unsupported hLive hNext hFetch hDec, State.raise_engine _ _, rfl, rfl,
    unchanged_mono (unchanged_append (unchanged_append unchanged_afterEvent unchanged_advance) (unchanged_raise _)) (by simp)⟩

/-- Settles O43: the cycle ends in `State.notify`; the handler has kept the observers, their port and, being live after it, the
engine state. -/
theorem completedCycleNotifiesObservers : Obligations.CompletedCycleNotifiesObservers := by
  intro s u i hLive hNext hFetch hDec hExec hLiveU
  have hObs : u.observers = s.observers := (exec_observers hExec :)
  have hHalts : u.halts = s.halts := (exec_halts hExec :)
  have hEngine : u.engine = s.engine := by
    obtain hKept | ⟨d, hd⟩ := exec_engine hExec
    · exact hKept
    · rw [HaltedOn] at hd
      simp [Live, Engine.isHalted, hd] at hLiveU
  have hStep := step_of_exec hLive hNext hFetch hDec hExec
  rw [finishCycle_of_live _ hLiveU] at hStep
  refine ⟨_, CycleContext.of u s.opcodeAtPc, hStep, State.notify_context _ _, rfl, rfl, rfl, rfl, rfl, rfl, rfl,
    ?_, ?_, fun hAsk => ?_, fun hAsk => ?_, unchanged_notify _⟩
  · rw [State.notify_observers, hObs]
    rfl
  · rw [State.notify_halts, pollHalts_feed, hObs, hHalts]
  · rw [State.notify_engine, hObs, hHalts, if_pos ((pollHalts_asked _ _).2 hAsk)]
  · rw [State.notify_engine, hObs, hHalts, if_neg fun hTrue => hAsk ((pollHalts_asked _ _).1 hTrue), hEngine]

/-- Settles O44: the cycle's end leaves a halted state alone, and the handler has not touched the host parts. -/
theorem fatalCycleNotifiesNobody : Obligations.FatalCycleNotifiesNobody := by
  intro s u i hLive hNext hFetch hDec hExec hHalted
  refine ⟨?_, (exec_context hExec :), (exec_observers hExec :), (exec_halts hExec :)⟩
  rw [step_of_exec hLive hNext hFetch hDec hExec, finishCycle_of_halted _ hHalted]

/-- Settles O54: the advance moves PC, and neither the handler nor the end of the cycle writes it. -/
theorem pcAdvancesByTwo : Obligations.PcAdvancesByTwo := by
  intro s t i hNext hFetch hDec hPc hStep
  obtain ⟨hLive, -⟩ := stepMachine_next hStep
  obtain ⟨u, hExec⟩ := exec_total i s.afterEvent.advance
  have hKept : u.pc = s.pc + 2 := exec_frame hExec .pc hPc
  cases (step_of_exec hLive hNext hFetch hDec hExec).symm.trans hStep
  rw [State.finishCycle_pc, hKept]

/-! ## A placed word runs next (log entry 1) -/

section Placing

variable {s : State} {w : Word}

/-- Placing where a fetch succeeds moves nothing but the two bytes, the engine and the schedule. -/
theorem placeWord_of_fetchInBounds (hFetch : FetchInBounds s) :
    s.placeWord w = ((s.setMem (Memory.putAll s.mem s.pc.toNat [highByte w, lowByte w])).setEngine s.engine.revived).setSchedule
      { s.schedule with queued := .tick .cycle :: s.schedule.queued } := by
  rw [State.placeWord, if_pos (s.fetchOutOfRange_none hFetch)]

theorem placeWord_opcodeAtPc (hWf : Memory.wf s.mem) (hFetch : FetchInBounds s) : (s.placeWord w).opcodeAtPc = w := by
  have hBound : [highByte w, lowByte w] = [] ∨ s.pc.toNat + [highByte w, lowByte w].length ≤ memSize := .inr hFetch
  rw [placeWord_of_fetchInBounds hFetch]
  simp only [State.opcodeAtPc, State.setSchedule_mem, State.setSchedule_pc, State.setEngine_mem, State.setEngine_pc,
    State.setMem_mem, State.setMem_pc, Memory.get_putAll _ _ _ _ hWf hBound]
  simp [joinBytes_split]

end Placing

/-- Settles O40: the placed word is the opcode at the reset PC, and it decodes to its instruction. -/
theorem placedInstructionRunsNext : Obligations.PlacedInstructionRunsNext := by
  intro i
  have hWord : State.reset.withFetchWord 16 (encode i).toNat = State.reset.placeWord (encode i) := by
    rw [State.withFetchWord, Nat.mod_eq_of_lt (encode i).isLt, BitVec.ofNat_toNat, BitVec.setWidth_eq]
  have hFetch : FetchInBounds State.reset := by unfold FetchInBounds; decide
  have hOpcode : (State.reset.placeWord (encode i)).opcodeAtPc = encode i := placeWord_opcodeAtPc Memory.wf_nil hFetch
  have hPlaced := placeWord_of_fetchInBounds (w := encode i) hFetch
  have hStep := step_of_decoded (s := State.reset.placeWord (encode i)) (i := i)
    (by rw [hPlaced]; rfl) (by rw [hPlaced]; rfl) (by rw [hPlaced]; exact hFetch) (by rw [hOpcode, decode_encode])
  rw [hWord, hStep, hOpcode]

end Sys2Proof.Proofs
end

section
/-! Every step: the engine's transitions, progress, and the machine's invariant (40_cycle.md R100, 10_state.md). -/

namespace Sys2Proof.Proofs

open Sys2Proof.Machine

/-! ## Start, and progress -/

section Progress

variable {s : State}

theorem ready_or_running_of_live (hLive : Live s) : s.engine = .ready ∨ s.engine = .running := by
  cases hEngine : s.engine with
  | ready => exact .inl rfl
  | running => exact .inr rfl
  | halted why => simp [Live, Engine.isHalted, hEngine] at hLive

theorem step_of_start_ready (hEngine : s.engine = .ready) (hNext : s.nextEvent = .start) :
    step s = .next (s.afterEvent.setEngine .running) := by
  have hTaken : s.afterEvent.engine = .ready := hEngine
  rw [step_of_live (by rw [Live, hEngine]; rfl), hNext, runEvent, startEngine, hTaken]

theorem step_of_start_running (hEngine : s.engine = .running) (hNext : s.nextEvent = .start) :
    step s = .refused .startNotReady := by
  have hTaken : s.afterEvent.engine = .running := hEngine
  rw [step_of_live (by rw [Live, hEngine]; rfl), hNext, runEvent, startEngine, hTaken]

/-- The arbitrator only ticks, so a Running machine starts only when the schedule's queue says so (R255). -/
theorem nextEvent_ne_start_of_running (hEngine : s.engine = .running) (hHead : s.schedule.queued.head? ≠ some .start) :
    s.nextEvent ≠ .start := by
  unfold State.nextEvent
  cases hQueue : s.schedule.queued with
  | nil => simp [hEngine]
  | cons e rest => simpa [hQueue] using hHead

theorem execCycle_total (s : State) : ∃ t, execCycle s = .next t := by
  rw [execCycle]
  cases s.fetchOutOfRange with
  | some a => exact ⟨_, rfl⟩
  | none =>
    rw [dispatch]
    cases decode s.advance.params.looseDecode s.opcodeAtPc with
    | none => exact ⟨_, rfl⟩
    | some i =>
      obtain ⟨u, hExec⟩ := exec_total i s.advance
      exact ⟨u.finishCycle s.opcodeAtPc, congrArg (completeCycle s.opcodeAtPc) hExec⟩

theorem runTick_total (k : Config.Tick) (s : State) : ∃ t, runTick k s = .next t := by
  cases k with
  | cycle => exact execCycle_total s
  | delay | sound => exact ⟨_, rfl⟩

end Progress

/-- Settles O46: only the engine state decides whether a start is refused. -/
theorem startMovesReadyToRunning : Obligations.StartMovesReadyToRunning := by
  refine ⟨fun s hEngine hNext => ?_, fun s hEngine hNext => step_of_start_running hEngine hNext⟩
  exact ⟨_, step_of_start_ready hEngine hNext, rfl,
    unchanged_mono (unchanged_append unchanged_afterEvent (unchanged_setEngine _)) (by simp)⟩

/-- Settles O50: a tick always answers, and a start does so in the Ready machine, the only one it can come to here. -/
theorem liveMachineAlwaysSteps : Obligations.LiveMachineAlwaysSteps := by
  intro s hLive hNoStart
  cases hNext : s.nextEvent with
  | tick k =>
    rw [step_of_tick hLive hNext]
    exact runTick_total k _
  | start =>
    obtain hEngine | hEngine := ready_or_running_of_live hLive
    · exact ⟨_, step_of_start_ready hEngine hNext⟩
    · exact absurd hNext (nextEvent_ne_start_of_running hEngine (hNoStart hEngine))

/-! ## What every cycle keeps -/

section Cycle

variable {s t : State}

/-- A cycle takes no event, changes no parameter and registers no observer. -/
theorem execCycle_keeps (h : execCycle s = .next t) :
    t.schedule = s.schedule ∧ t.params = s.params ∧ t.observers.length = s.observers.length := by
  obtain ⟨-, rfl⟩ | ⟨-, -, rfl⟩ | ⟨-, i, u, -, hExec, rfl⟩ := execCycle_next h
  · exact ⟨rfl, rfl, rfl⟩
  · exact ⟨rfl, rfl, rfl⟩
  · rw [State.finishCycle_schedule, State.finishCycle_params, finishCycle_observers_length, exec_schedule hExec,
      exec_params hExec, exec_observers hExec]
    exact ⟨rfl, rfl, rfl⟩

/-- A cycle keeps the engine state or halts the machine. -/
theorem execCycle_engine (h : execCycle s = .next t) : t.engine = s.engine ∨ ∃ why, t.engine = .halted why := by
  obtain ⟨-, rfl⟩ | ⟨-, -, rfl⟩ | ⟨-, i, u, -, hExec, rfl⟩ := execCycle_next h
  · exact .inr ⟨_, State.raise_engine _ _⟩
  · exact .inr ⟨_, State.raise_engine _ _⟩
  · obtain hEnd | hEnd := finishCycle_engine_cases (s := u) s.opcodeAtPc
    · rw [hEnd]
      exact (exec_engine hExec).imp id fun ⟨d, hd⟩ => ⟨_, hd⟩
    · exact .inr ⟨_, hEnd⟩

/-- A step takes one event off the schedule, changes no parameter and registers no observer. -/
theorem step_keeps (h : step s = .next t) :
    t.schedule = s.schedule.advance ∧ t.params = s.params ∧ t.observers.length = s.observers.length := by
  obtain ⟨-, ⟨-, -, rfl⟩ | ⟨-, rfl⟩ | ⟨-, rfl⟩ | ⟨-, hCycle⟩⟩ := stepMachine_next h
  · exact ⟨rfl, rfl, rfl⟩
  · exact ⟨rfl, rfl, rfl⟩
  · exact ⟨rfl, rfl, rfl⟩
  · exact execCycle_keeps hCycle

end Cycle

/-- Settles O47: the four kinds of step, of which only a cycle can halt. -/
theorem engineTransitions : Obligations.EngineTransitions := by
  intro s t hStep
  obtain ⟨hLive, ⟨hNext, hReady, rfl⟩ | ⟨hNext, rfl⟩ | ⟨hNext, rfl⟩ | ⟨hNext, hCycle⟩⟩ := stepMachine_next hStep
  · exact ⟨hLive, .inl ⟨hNext, hReady, rfl⟩⟩
  · exact ⟨hLive, .inr (.inl ⟨by simp [hNext], rfl⟩)⟩
  · exact ⟨hLive, .inr (.inl ⟨by simp [hNext], rfl⟩)⟩
  · obtain hKept | hHalted := execCycle_engine hCycle
    · exact ⟨hLive, .inr (.inl ⟨by simp [hNext], hKept⟩)⟩
    · exact ⟨hLive, .inr (.inr ⟨hNext, hHalted⟩)⟩

/-- Settles O57: `step_keeps`. -/
theorem stepKeepsParameters : Obligations.StepKeepsParameters := by
  intro s t hStep
  obtain ⟨-, hParams, hObservers⟩ := step_keeps hStep
  exact ⟨hParams, hObservers⟩

/-- Settles O60: `State.nextEvent` looks at the queue first, and `step_keeps` says the event is taken. -/
theorem stepTakesOneEvent : Obligations.StepTakesOneEvent := by
  refine ⟨fun s e rest hQueue => by rw [State.nextEvent, hQueue], fun s t hStep => ?_⟩
  obtain ⟨hSchedule, -, -⟩ := step_keeps hStep
  exact hSchedule

/-! ## The invariant -/

section Invariant

variable {i : Instr} {s t : State}

/-- The invariant speaks of four parts only. -/
theorem machineInv_of_same (hInv : MachineInv s) (hMem : t.mem = s.mem) (hPc : t.pc = s.pc) (hStack : t.stack = s.stack)
    (hParams : t.params = s.params) : MachineInv t where
  memWf := by rw [hMem]; exact hInv.memWf
  pcBound := by rw [hPc]; exact hInv.pcBound
  returnBound := by rw [hStack]; exact hInv.returnBound
  depth := by rw [hStack, hParams]; exact hInv.depth
  paramsWf := by rw [hParams]; exact hInv.paramsWf

/-- A byte that a store running out of memory may still write is in bounds (R249). -/
theorem inBounds_of_torn {j : Nat} (h : (fun k => decide (s.ea k < memSize) && s.keepsNew k) (0 + j) = true) :
    s.i.toNat + j < memSize := by
  simp only [Nat.zero_add, Bool.and_eq_true, decide_eq_true_eq] at h
  exact h.1

/-- A store keeps memory canonical: only bytes in bounds are stored, out of bounds too (R249). -/
theorem storeAtI_wf (bs : List Byte) (hWf : Memory.wf s.mem) : Memory.wf (s.storeAtI bs).mem := by
  by_cases h : bs.length = 0 ∨ s.i.toNat + bs.length ≤ memSize
  · rw [s.storeAtI_inBounds bs h]
    exact Memory.putAll_wf bs _ _ hWf (h.imp_left List.eq_nil_of_length_eq_zero)
  · rw [s.storeAtI_outOfBounds bs h]
    exact Memory.putSome_wf _ bs _ _ 0 hWf fun j => inBounds_of_torn

theorem loadAtI_mem (x : Reg) : (s.loadAtI x).mem = s.mem := by
  by_cases h : s.i.toNat + (x.val + 1) ≤ memSize
  · rw [s.loadAtI_inBounds x h, State.setRegs_mem]
  · rw [s.loadAtI_outOfBounds x h]
    rfl

theorem keyTest_mem (x : Reg) (op : KeyTest) (want : Bool) : (s.keyTest x op want).mem = s.mem := by
  by_cases h : (s.V x).toNat < 16
  · rw [s.keyTest_inRange x op want h, State.skipIf_eq]
    rfl
  · rw [s.keyTest_outOfRange x op want h, State.raise_mem]

theorem exec_draw_mem {x y : Reg} {n : Rows} (h : exec (.draw x y n) s = .next t) : t.mem = s.mem := by
  obtain ⟨-, rfl⟩ | ⟨-, rfl⟩ := exec_draw_cases h <;> simp [State.setFlag]

/-- Only STDR and STRD give the memory another form. -/
theorem exec_mem_wf (hWf : Memory.wf s.mem) (h : exec i s = .next t) : Memory.wf t.mem := by
  cases i with
  | stdr | strd => cases h; exact storeAtI_wf _ hWf
  | ret => obtain ⟨-, rfl⟩ | ⟨w, rest, -, rfl⟩ := exec_ret_cases h <;> exact hWf
  | call nnn => obtain ⟨-, rfl⟩ | ⟨-, rfl⟩ := exec_call_cases h <;> exact hWf
  | draw x y n => rw [exec_draw_mem h]; exact hWf
  | ldkp x => obtain ⟨-, rfl⟩ | ⟨k, -, rfl⟩ := exec_ldkp_cases h <;> exact hWf
  | se | sne | ser | sner => cases h; rw [State.skipIf_eq]; exact hWf
  | shr | shl => cases h; rw [State.shift_mem]; exact hWf
  | skp | sknp => cases h; rw [keyTest_mem]; exact hWf
  | ldrd x => cases h; rw [loadAtI_mem]; exact hWf
  | cls | jmp | set | setr | add | addr | sub | subr | or | and | xor | lda | jmpo | rand | lddt | stdt | stst | adda | ldsa =>
    cases h; exact hWf

/-- JMPO's target, up to 0x10FE (R137). -/
theorem offsetTarget_toNat (nnn : Addr) : (s.offsetTarget nnn).toNat = (s.V 0).toNat + nnn.toNat := by
  have := (s.V 0).isLt
  have := nnn.isLt
  rw [State.offsetTarget, BitVec.toNat_ofNat]
  omega

theorem pc_add_two_toNat (hHi : s.pc.toNat ≤ 0x1000) : (s.pc + 2).toNat = s.pc.toNat + 2 := by
  bv_omega

theorem pc_sub_two_toNat (hLo : 2 ≤ s.pc.toNat) : (s.pc - 2).toNat = s.pc.toNat - 2 := by
  bv_omega

theorem skipIf_pcBound (c : Bool) (hHi : s.pc.toNat ≤ 0x1000) : (s.skipIf c).pc.toNat ≤ 0x10FE := by
  have := pc_add_two_toNat hHi
  rw [State.skipIf_eq, State.setPc_pc]
  split <;> omega

theorem keyTest_pcBound (x : Reg) (op : KeyTest) (want : Bool) (hHi : s.pc.toNat ≤ 0x1000) :
    (s.keyTest x op want).pc.toNat ≤ 0x10FE := by
  by_cases h : (s.V x).toNat < 16
  · rw [s.keyTest_inRange x op want h]
    exact skipIf_pcBound _ hHi
  · rw [s.keyTest_outOfRange x op want h, State.raise_pc]
    omega

/-- With PC at A + 2, A in memory, no handler takes PC above JMPO's highest target (R27). -/
theorem exec_pcBound (hLo : 2 ≤ s.pc.toNat) (hHi : s.pc.toNat ≤ 0x1000) (hReturn : ∀ w ∈ s.stack, w.toNat ≤ 0x1000)
    (h : exec i s = .next t) : t.pc.toNat ≤ 0x10FE := by
  have hPc : s.pc.toNat ≤ 0x10FE := by omega
  cases i with
  | ret =>
    obtain ⟨-, rfl⟩ | ⟨w, rest, hStack, rfl⟩ := exec_ret_cases h
    · exact hPc
    · have hw := hReturn w (by simp [hStack])
      rw [State.setPc_pc]
      omega
  | call nnn =>
    obtain ⟨-, rfl⟩ | ⟨-, rfl⟩ := exec_call_cases h
    · exact hPc
    · have := nnn.isLt
      rw [State.setPc_pc, addrOperand_toNat]
      omega
  | ldkp x =>
    obtain ⟨-, rfl⟩ | ⟨k, -, rfl⟩ := exec_ldkp_cases h
    · rw [State.setPc_pc, pc_sub_two_toNat hLo]
      omega
    · exact hPc
  | jmp nnn =>
    cases h
    have := nnn.isLt
    rw [State.setPc_pc, addrOperand_toNat]
    omega
  | jmpo nnn =>
    cases h
    have := (s.V 0).isLt
    have := nnn.isLt
    rw [State.setPc_pc, offsetTarget_toNat]
    omega
  | se | sne | ser | sner => cases h; exact skipIf_pcBound _ hHi
  | skp | sknp => cases h; exact keyTest_pcBound _ _ _ hHi
  | _ =>
    have hKept : t.pc = s.pc := exec_frame h .pc (by simp [Instr.mayWrite])
    rw [hKept]
    exact hPc

/-- Only RET and CALL write the stack: one takes an entry off, the other adds A + 2 where there is room (R28, R29). -/
theorem exec_stack_bounds (hHi : s.pc.toNat ≤ 0x1000) (hReturn : ∀ w ∈ s.stack, w.toNat ≤ 0x1000)
    (hDepth : ∀ d, s.params.stackDepth = .limit d → s.stack.length ≤ d) (h : exec i s = .next t) :
    (∀ w ∈ t.stack, w.toNat ≤ 0x1000) ∧ ∀ d, s.params.stackDepth = .limit d → t.stack.length ≤ d := by
  cases i with
  | ret =>
    obtain ⟨-, rfl⟩ | ⟨w, rest, hStack, rfl⟩ := exec_ret_cases h
    · exact ⟨hReturn, hDepth⟩
    · simp only [hStack, List.length_cons] at hReturn hDepth
      exact ⟨fun w' hw => hReturn w' (List.mem_cons_of_mem _ hw), fun d hd => Nat.le_of_succ_le (hDepth d hd)⟩
  | call nnn =>
    obtain ⟨-, rfl⟩ | ⟨hRoom, rfl⟩ := exec_call_cases h
    · exact ⟨hReturn, hDepth⟩
    · refine ⟨List.forall_mem_cons.2 ⟨hHi, hReturn⟩, fun d hd => ?_⟩
      have hNe : s.stack.length ≠ d := fun hEq => hRoom (by rw [hd, hEq])
      exact Nat.lt_of_le_of_ne (hDepth d hd) hNe
  | _ =>
    have hKept : t.stack = s.stack := exec_frame h .stack (by simp [Instr.mayWrite])
    rw [hKept]
    exact ⟨hReturn, hDepth⟩

/-- A handler that starts with PC at A + 2, A in memory, keeps the invariant. -/
theorem exec_keepsInv (hInv : MachineInv s) (hLo : 2 ≤ s.pc.toNat) (hHi : s.pc.toNat ≤ 0x1000) (h : exec i s = .next t) :
    MachineInv t := by
  obtain ⟨hReturn, hDepth⟩ := exec_stack_bounds hHi hInv.returnBound hInv.depth h
  have hParams := exec_params h
  exact
    { memWf := exec_mem_wf hInv.memWf h
      pcBound := exec_pcBound hLo hHi hInv.returnBound h
      returnBound := hReturn
      depth := by rw [hParams]; exact hDepth
      paramsWf := by rw [hParams]; exact hInv.paramsWf }

/-- A fetch in memory leaves PC at A + 2, at most 0x1000 (R105, R106). -/
theorem advance_pc_toNat (hFetch : FetchInBounds s) : s.advance.pc.toNat = s.pc.toNat + 2 := by
  have hBound : s.pc.toNat + 1 < 4096 := hFetch
  exact pc_add_two_toNat (by omega)

theorem advance_keepsInv (hInv : MachineInv s) (hFetch : FetchInBounds s) : MachineInv s.advance where
  memWf := hInv.memWf
  pcBound := by
    have hBound : s.pc.toNat + 1 < 4096 := hFetch
    rw [advance_pc_toNat hFetch]
    omega
  returnBound := hInv.returnBound
  depth := hInv.depth
  paramsWf := hInv.paramsWf

theorem execCycle_keepsInv (hInv : MachineInv s) (h : execCycle s = .next t) : MachineInv t := by
  obtain ⟨-, rfl⟩ | ⟨hFetch, -, rfl⟩ | ⟨hFetch, i, u, -, hExec, rfl⟩ := execCycle_next h
  · exact machineInv_of_same hInv rfl rfl rfl rfl
  · exact machineInv_of_same (advance_keepsInv hInv hFetch) rfl rfl rfl rfl
  · have hPc := advance_pc_toNat hFetch
    have hBound : s.pc.toNat + 1 < 4096 := hFetch
    have hInvU := exec_keepsInv (advance_keepsInv hInv hFetch) (by omega) (by omega) hExec
    exact machineInv_of_same hInvU (State.finishCycle_mem _ _) (State.finishCycle_pc _ _) (State.finishCycle_stack _ _)
      (State.finishCycle_params _ _)

end Invariant

/-- Settles O56: a start and the timer ticks write no part the invariant speaks of, and a cycle keeps it. -/
theorem stepKeepsInvariant : Obligations.StepKeepsInvariant := by
  intro s t hInv hStep
  have hTaken : MachineInv s.afterEvent := machineInv_of_same hInv rfl rfl rfl rfl
  obtain ⟨-, ⟨-, -, rfl⟩ | ⟨-, rfl⟩ | ⟨-, rfl⟩ | ⟨-, hCycle⟩⟩ := stepMachine_next hStep
  · exact machineInv_of_same hTaken rfl rfl rfl rfl
  · exact machineInv_of_same hTaken rfl rfl rfl rfl
  · exact machineInv_of_same hTaken rfl rfl rfl rfl
  · exact execCycle_keepsInv hTaken hCycle

/-! ## Reset -/

/-- The default parameters are in their domains: STACK_DEPTH is unbounded and both rates are positive (R8). -/
theorem params_default_wf : Params.default.wf := ⟨nofun, Nat.succ_pos _, by decide⟩

/-- Settles O55: nothing is listed in memory and nothing is on the stack. -/
theorem invariantAtReset : Obligations.InvariantAtReset where
  memWf := Memory.wf_nil
  pcBound := by decide
  returnBound := nofun
  depth := nofun
  paramsWf := params_default_wf

/-- Settles O58: each value is a field of `State.reset`, and the font bytes are read one by one. -/
theorem resetLeavesBootState : Obligations.ResetLeavesBootState :=
  ⟨rfl, rfl, rfl, rfl, rfl, rfl, by decide⟩

end Sys2Proof.Proofs
end

section
/-! The host's side: handlers neither read nor write the schedule, the observers, their answers, the context and the rates, and no
step reads the rates (60_exceptions.md R256). -/

namespace Sys2Proof.Proofs

open Sys2Proof.Machine Sys2Proof.Config

/-- A state with the host's fields replaced. -/
def withHost (f : Feed Event) (l : List Observer) (h : Feed Bool) (c : Option CycleContext) (p : Params) (s : State) : State :=
  { s with schedule := f, observers := l, halts := h, context := c, params := p }

/-- The same, field update by field update. -/
theorem withHost_eq (f : Feed Event) (l : List Observer) (h : Feed Bool) (c : Option CycleContext) (p : Params) :
    withHost f l h c p = fun s => (((s.setSchedule f).setObservers l).setHalts h).setContext c |>.setParams p := by
  funext s
  simp only [withHost, State.setSchedule, State.setObservers, State.setHalts, State.setContext, State.setParams]

/-! ## Each operation an instruction uses commutes with replacing them

An operation that branches takes the same branch, since what it tests is no host field, and its writes are to other fields. Two
tests read a parameter: CALL's reads STACK_DEPTH and a shift of VF reads SHIFT_VF_ALIAS. -/

section Commutes

variable (f : Feed Event) (l : List Observer) (h : Feed Bool) (c : Option CycleContext) (p : Params) (s : State)

theorem skipIf_withHost (b : Bool) : (withHost f l h c p s).skipIf b = withHost f l h c p (s.skipIf b) := by
  cases b <;> rfl

theorem shift_withHost (x : Reg) (op out : Byte → Byte) (hAlias : p.shiftVf = s.params.shiftVf) :
    (withHost f l h c p s).shift x op out = withHost f l h c p (s.shift x op out) := by
  have hRead : (withHost f l h c p s).params.shiftVf = s.params.shiftVf := hAlias
  unfold State.shift
  rw [hRead]
  split <;> rfl

theorem storeAtI_withHost (bs : List Byte) : (withHost f l h c p s).storeAtI bs = withHost f l h c p (s.storeAtI bs) := by
  by_cases hIn : bs.length = 0 ∨ s.i.toNat + bs.length ≤ memSize
  · rw [s.storeAtI_inBounds bs hIn, (withHost f l h c p s).storeAtI_inBounds bs hIn]
    rfl
  · rw [s.storeAtI_outOfBounds bs hIn, (withHost f l h c p s).storeAtI_outOfBounds bs hIn]
    rfl

theorem loadAtI_withHost (x : Reg) : (withHost f l h c p s).loadAtI x = withHost f l h c p (s.loadAtI x) := by
  by_cases hIn : s.i.toNat + (x.val + 1) ≤ memSize
  · rw [s.loadAtI_inBounds x hIn, (withHost f l h c p s).loadAtI_inBounds x hIn]
    rfl
  · rw [s.loadAtI_outOfBounds x hIn, (withHost f l h c p s).loadAtI_outOfBounds x hIn]
    rfl

theorem keyTest_withHost (x : Reg) (op : KeyTest) (want : Bool) :
    (withHost f l h c p s).keyTest x op want = withHost f l h c p (s.keyTest x op want) := by
  by_cases hKey : (s.V x).toNat < 16
  · rw [s.keyTest_inRange x op want hKey, (withHost f l h c p s).keyTest_inRange x op want hKey]
    exact skipIf_withHost f l h c p s.afterKeyQuery _
  · rw [s.keyTest_outOfRange x op want hKey, (withHost f l h c p s).keyTest_outOfRange x op want hKey]
    rfl

theorem execRet_withHost : execRet (withHost f l h c p s) = mapNext (withHost f l h c p) (execRet s) := by
  have hStack : (withHost f l h c p s).stack = s.stack := rfl
  unfold execRet
  rw [hStack]
  cases s.stack <;> rfl

theorem execCall_withHost (nnn : Addr) (hDepth : p.stackDepth = s.params.stackDepth) :
    execCall nnn (withHost f l h c p s) = mapNext (withHost f l h c p) (execCall nnn s) := by
  have hFull : (withHost f l h c p s).stackFull = s.stackFull := by
    have hRead : (withHost f l h c p s).params.stackDepth = s.params.stackDepth := hDepth
    unfold State.stackFull
    rw [hRead]
    rfl
  unfold execCall
  rw [hFull]
  cases s.stackFull <;> rfl

theorem execDraw_withHost (x y : Reg) (n : Rows) :
    execDraw x y n (withHost f l h c p s) = mapNext (withHost f l h c p) (execDraw x y n s) := by
  by_cases hIn : n.val = 0 ∨ s.i.toNat + n.val ≤ memSize
  · rw [execDraw_inBounds s x y n hIn, execDraw_inBounds (withHost f l h c p s) x y n hIn]
    rfl
  · rw [execDraw_outOfBounds s x y n hIn, execDraw_outOfBounds (withHost f l h c p s) x y n hIn]
    rfl

theorem execLdkp_withHost (x : Reg) : execLdkp x (withHost f l h c p s) = mapNext (withHost f l h c p) (execLdkp x s) := by
  have hPolled : (withHost f l h c p s).polledKey = s.polledKey := rfl
  unfold execLdkp
  rw [hPolled]
  cases s.polledKey <;> rfl

/-- Every handler commutes with replacing the host's fields, the parameters other than STACK_DEPTH and SHIFT_VF_ALIAS among
them. -/
theorem exec_withHost (i : Instr) (hDepth : p.stackDepth = s.params.stackDepth) (hAlias : p.shiftVf = s.params.shiftVf) :
    exec i (withHost f l h c p s) = mapNext (withHost f l h c p) (exec i s) := by
  cases i with
  | ret => exact execRet_withHost f l h c p s
  | call nnn => exact execCall_withHost f l h c p s nnn hDepth
  | draw x y n => exact execDraw_withHost f l h c p s x y n
  | ldkp x => exact execLdkp_withHost f l h c p s x
  | se | sne | ser | sner => exact congrArg Host.Outcome.next (skipIf_withHost f l h c p s _)
  | shr | shl => exact congrArg Host.Outcome.next (shift_withHost f l h c p s _ _ _ hAlias)
  | skp | sknp => exact congrArg Host.Outcome.next (keyTest_withHost f l h c p s _ _ _)
  | stdr | strd => exact congrArg Host.Outcome.next (storeAtI_withHost f l h c p s _)
  | ldrd => exact congrArg Host.Outcome.next (loadAtI_withHost f l h c p s _)
  | cls | jmp | set | setr | add | addr | sub | subr | or | and | xor | lda | jmpo | rand | lddt | stdt | stst | adda | ldsa => rfl

end Commutes

/-- Settles O52: replacing the rates keeps the two parameters a handler reads. -/
theorem handlersCannotReachTheHostSide : Obligations.HandlersCannotReachTheHostSide := by
  intro i s f l h c r
  have hCommutes := exec_withHost f l h c { s.params with rates := r } s i rfl rfl
  rw [withHost_eq] at hCommutes
  exact hCommutes

/-! ## The rates -/

section Rates

variable (r : Rates)

/-- A state with other rates. -/
def withRates (s : State) : State := s.setParams { s.params with rates := r }

/-- Rates alone are host fields replaced by themselves, since a handler keeps the others. -/
theorem exec_withRates (i : Instr) (s : State) : exec i (withRates r s) = mapNext (withRates r) (exec i s) := by
  obtain ⟨t, hExec⟩ := exec_total i s
  have hCommutes := exec_withHost s.schedule s.observers s.halts s.context { s.params with rates := r } s i rfl rfl
  have hKept : withHost s.schedule s.observers s.halts s.context { s.params with rates := r } t = withRates r t := by
    rw [← exec_schedule hExec, ← exec_observers hExec, ← exec_halts hExec, ← exec_context hExec, ← exec_params hExec]
    rfl
  rw [hExec, mapNext, hKept] at hCommutes
  rw [hExec, mapNext]
  exact hCommutes

theorem notify_withRates (w : Word) (s : State) : (withRates r s).notify w = withRates r (s.notify w) := by
  have hAsked : pollHalts (withRates r s).observers.length (withRates r s).halts = pollHalts s.observers.length s.halts := rfl
  unfold State.notify
  rw [hAsked]
  dsimp only
  split <;> rfl

theorem finishCycle_withRates (w : Word) (s : State) : (withRates r s).finishCycle w = withRates r (s.finishCycle w) := by
  cases hHalted : s.engine.isHalted with
  | true => rw [finishCycle_of_halted w hHalted, finishCycle_of_halted (s := withRates r s) w hHalted]
  | false => rw [finishCycle_of_live w hHalted, finishCycle_of_live (s := withRates r s) w hHalted, notify_withRates]

theorem completeCycle_withRates (w : Word) (o : Result) :
    completeCycle w (mapNext (withRates r) o) = mapNext (withRates r) (completeCycle w o) := by
  cases o with
  | next t => exact congrArg Host.Outcome.next (finishCycle_withRates r w t)
  | fault e | refused e => rfl

theorem dispatch_withRates (w : Word) (s : State) : dispatch w (withRates r s) = mapNext (withRates r) (dispatch w s) := by
  have hLoose : (withRates r s).params.looseDecode = s.params.looseDecode := rfl
  rw [dispatch, dispatch, hLoose]
  cases decode s.params.looseDecode w with
  | none => rfl
  | some i => exact exec_withRates r i s

theorem execCycle_withRates (s : State) : execCycle (withRates r s) = mapNext (withRates r) (execCycle s) := by
  have hFetch : (withRates r s).fetchOutOfRange = s.fetchOutOfRange := rfl
  have hOpcode : (withRates r s).opcodeAtPc = s.opcodeAtPc := rfl
  have hAdvance : (withRates r s).advance = withRates r s.advance := rfl
  rw [execCycle, execCycle, hFetch, hOpcode, hAdvance, dispatch_withRates, completeCycle_withRates]
  cases s.fetchOutOfRange <;> rfl

theorem runEvent_withRates (e : Event) (s : State) : runEvent e (withRates r s) = mapNext (withRates r) (runEvent e s) := by
  cases e with
  | start =>
    have hEngine : (withRates r s).engine = s.engine := rfl
    rw [runEvent, runEvent, startEngine, startEngine, hEngine]
    cases s.engine <;> rfl
  | tick k =>
    cases k with
    | cycle => exact execCycle_withRates r s
    | delay | sound => rfl

theorem stepMachine_withRates (s : State) : stepMachine (withRates r s) = mapNext (withRates r) (stepMachine s) := by
  have hEngine : (withRates r s).engine = s.engine := rfl
  have hQueue : (withRates r s).schedule = s.schedule := rfl
  have hNext : (withRates r s).nextEvent = s.nextEvent := rfl
  have hTaken : (withRates r s).afterEvent = withRates r s.afterEvent := rfl
  rw [stepMachine, stepMachine, hEngine, hQueue, hNext, hTaken, runEvent_withRates]
  cases s.engine with
  | ready | running => rfl
  | halted why =>
    dsimp only
    split <;> rfl

end Rates

/-- Settles O53: no part of a step reads the rates, and every update leaves them where they are. -/
theorem ratesDoNotInfluenceSteps : Obligations.RatesDoNotInfluenceSteps := fun s r => stepMachine_withRates r s

end Sys2Proof.Proofs
end

section
/-! Calls, the remaining ALU instructions, the address register, keys and the delay timer, handler by handler. -/

namespace Sys2Proof.Proofs

open Sys2Proof.Machine

/-! ## Calls and the offset jump -/

section Calls

variable {s t : State} {nnn : Addr}

theorem exec_call_overflow (hFull : s.params.stackDepth = .limit s.stack.length) (h : exec (.call nnn) s = .next t) :
    t = s.raise (.stackOverflow (s.pc - 2)) := by
  obtain ⟨-, hRaise⟩ | ⟨hRoom, -⟩ := exec_call_cases h
  · exact hRaise
  · exact absurd hFull hRoom

theorem exec_call_push (hRoom : s.params.stackDepth ≠ .limit s.stack.length) (h : exec (.call nnn) s = .next t) :
    t = (s.push s.pc).setPc (addrOperand nnn) := by
  obtain ⟨hFull, -⟩ | ⟨-, hPush⟩ := exec_call_cases h
  · exact absurd hFull hRoom
  · exact hPush

end Calls

/-- Settles O9: the stack's length against STACK_DEPTH decides between the push and STACK_OVERFLOW. -/
theorem callPushesOrOverflows : Obligations.CallPushesOrOverflows := by
  intro nnn s
  obtain ⟨t, hExec⟩ := exec_total (.call nnn) s
  refine ⟨encodes_of_wordNNN rfl rfl (by decide), fun hRoom => ⟨t, hExec, ?_⟩, fun hFull => ⟨t, hExec, ?_⟩⟩
  · obtain rfl := exec_call_push hRoom hExec
    exact ⟨addrOperand_toNat nnn, rfl, unchanged_push_setPc _ _⟩
  · obtain rfl := exec_call_overflow hFull hExec
    exact ⟨State.raise_engine _ _, unchanged_raise _⟩

/-- Settles O13: the value RET pops is the PC that CALL pushed. -/
theorem retAfterCallReturns : Obligations.RetAfterCallReturns := by
  intro nnn s t u hRoom hCall hStack
  obtain rfl := exec_call_push hRoom hCall
  exact ⟨_, exec_ret_of_cons hStack, rfl, rfl⟩

/-- Settles O12: JMPO is one write of PC. -/
theorem jmpoAddsV0 : Obligations.JmpoAddsV0 := by
  intro nnn s
  exact ⟨encodes_of_wordNNN rfl rfl (by decide), _, rfl, offsetTarget_toNat nnn, unchanged_setPc _⟩

/-! ## Bitwise operations -/

/-- An instruction that writes one register, its result given bit by bit. -/
theorem exec_setV_bits {i : Instr} {s : State} {x : Reg} {b : Byte} {bit : Nat → Bool}
    (hExec : exec i s = .next (s.setV x b)) (hBits : ∀ k, b.getLsbD k = bit k) :
    ∃ t, exec i s = .next t ∧ Unchanged [.v x] s t ∧ ∀ k, (t.V x).getLsbD k = bit k := by
  obtain ⟨t, hNext, hResult, hFrame⟩ := exec_setV hExec
  exact ⟨t, hNext, hFrame, fun k => by rw [hResult, hBits]⟩

/-- Settles O19: each is one register write of a bitwise result. -/
theorem bitwiseOpsLeaveVf : Obligations.BitwiseOpsLeaveVf := by
  intro x y s
  exact ⟨encodes_of_wordXYN rfl rfl (by decide), encodes_of_wordXYN rfl rfl (by decide),
    encodes_of_wordXYN rfl rfl (by decide), exec_setV_bits rfl fun _ => BitVec.getLsbD_or,
    exec_setV_bits rfl fun _ => BitVec.getLsbD_and, exec_setV_bits rfl fun _ => BitVec.getLsbD_xor⟩

/-! ## Shifts -/

section Shifts

theorem flag_toNat (c : Bool) : (flag c).toNat = if c = true then 1 else 0 := by
  cases c <;> rfl

theorem lowBitFlag_toNat (a : Byte) : (lowBitFlag a).toNat = a.toNat % 2 := by
  rw [lowBitFlag, flag_toNat]
  simp only [beq_iff_eq]
  split <;> omega

theorem highBitFlag_toNat (a : Byte) : (highBitFlag a).toNat = if a.toNat ≥ 128 then 1 else 0 := by
  rw [highBitFlag, flag_toNat]
  simp only [decide_eq_true_eq]

theorem half_toNat (a : Byte) : (BitVec.ofNat 8 (a.toNat / 2)).toNat = a.toNat / 2 := by
  have := a.isLt
  rw [BitVec.toNat_ofNat]
  omega

variable {i : Instr} {s : State} {op out : Byte → Byte}

/-- An instruction that shifts a register other than VF (R159, R160). -/
theorem exec_shift_of_ne {x : Reg} (hExec : exec i s = .next (s.shift x op out)) (hx : x ≠ VF) :
    ∃ t, exec i s = .next t ∧ t.V x = op (s.V x) ∧ t.V VF = out (s.V x) ∧ Unchanged [.v x, .v VF] s t :=
  ⟨_, hExec, by simp [s.shift_V_of_ne x x op out hx], by simp [s.shift_V_of_ne x VF op out hx, hx.symm],
    unchanged_shift s x op out⟩

/-- An instruction that shifts VF, by SHIFT_VF_ALIAS (R159, R160). -/
theorem exec_shift_vf (hExec : exec i s = .next (s.shift VF op out)) :
    ∃ t, exec i s = .next t ∧ Unchanged [.v VF] s t ∧
      (s.params.shiftVf = .resultLast → t.V VF = op (s.V VF)) ∧
      (s.params.shiftVf = .reread → t.V VF = op (out (s.V VF))) ∧
      (s.params.shiftVf = .flagLast → t.V VF = out (s.V VF)) := by
  have hFlag := s.shift_V_of_eq VF op out
  rw [if_pos rfl] at hFlag
  exact ⟨_, hExec, unchanged_mono (unchanged_shift s VF op out) (by simp), fun h => by rw [hFlag, h],
    fun h => by rw [hFlag, h], fun h => by rw [hFlag, h]⟩

end Shifts

/-- Settles O20: both are `State.shift`, which does not take the Y field. -/
theorem shiftsSetVfToBitShiftedOut : Obligations.ShiftsSetVfToBitShiftedOut := by
  intro x y s hx
  refine ⟨encodes_of_wordXYN rfl rfl (by decide), encodes_of_wordXYN rfl rfl (by decide), ?_, ?_⟩
  · obtain ⟨t, hNext, hResult, hFlag, hFrame⟩ := exec_shift_of_ne (i := .shr x y) (s := s) rfl hx
    exact ⟨t, hNext, by rw [hResult, half_toNat], by rw [hFlag, lowBitFlag_toNat], hFrame⟩
  · obtain ⟨t, hNext, hResult, hFlag, hFrame⟩ := exec_shift_of_ne (i := .shl x y) (s := s) rfl hx
    have hByte := (s.V x).isLt
    refine ⟨t, hNext, by rw [hResult, BitVec.toNat_ofNat], ?_, hFrame⟩
    rw [hFlag, highBitFlag_toNat]
    split <;> omega

/-- Settles O21: one case per value of SHIFT_VF_ALIAS. -/
theorem shiftOfVfByParameter : Obligations.ShiftOfVfByParameter := by
  intro y s
  refine ⟨encodes_of_wordXYN (x := VF) rfl (base := 0x8006) rfl (by decide),
    encodes_of_wordXYN (x := VF) rfl (base := 0x800E) rfl (by decide), ?_, ?_⟩
  · obtain ⟨t, hNext, hFrame, hResult, hReread, hFlag⟩ := exec_shift_vf (i := .shr VF y) (s := s) rfl
    refine ⟨t, hNext, hFrame, ?_⟩
    cases hAlias : s.params.shiftVf with
    | resultLast => rw [hResult hAlias, half_toNat]
    | reread =>
      rw [hReread hAlias, half_toNat, lowBitFlag_toNat]
      dsimp only
      omega
    | flagLast => rw [hFlag hAlias, lowBitFlag_toNat]
  · obtain ⟨t, hNext, hFrame, hResult, hReread, hFlag⟩ := exec_shift_vf (i := .shl VF y) (s := s) rfl
    refine ⟨t, hNext, hFrame, ?_⟩
    cases hAlias : s.params.shiftVf with
    | resultLast => rw [hResult hAlias, BitVec.toNat_ofNat]
    | reread =>
      rw [hReread hAlias, BitVec.toNat_ofNat, highBitFlag_toNat]
      dsimp only
      split <;> rfl
    | flagLast => rw [hFlag hAlias, highBitFlag_toNat]

/-! ## RAND -/

/-- Settles O22: one draw at the port, then one register write of the masked byte. -/
theorem randMasksOneDraw : Obligations.RandMasksOneDraw := by
  intro x kk s
  refine ⟨encodes_of_wordXKK rfl rfl (by decide), s.afterRandom.setV x (s.randomByte &&& kk), rfl, fun k => ?_,
    fun r rest hQueue => ⟨?_, ?_⟩, rfl, exec_frame (i := .rand x kk) rfl⟩
  · rw [State.setV_V, if_pos rfl, BitVec.getLsbD_and]
  · rw [State.randomByte, Feed.answer, hQueue]
  · rw [State.setV_random, State.afterRandom_random, Feed.advance, hQueue, List.tail_cons]

/-! ## The address register -/

/-- Settles O24: each is one write of I; 5 times a byte fits in 16 bits. -/
theorem addaWrapsAndLdsaPointsAtGlyph : Obligations.AddaWrapsAndLdsaPointsAtGlyph := by
  intro x s
  have hByte := (s.V x).isLt
  refine ⟨encodes_of_wordXKK_fixedLow rfl rfl (by decide), encodes_of_wordXKK_fixedLow rfl rfl (by decide),
    ⟨_, rfl, BitVec.toNat_ofNat _ _, unchanged_setI _⟩, ⟨_, rfl, ?_, unchanged_setI _⟩⟩
  rw [State.setI_i, BitVec.toNat_ofNat]
  omega

/-! ## Key tests -/

section Keys

variable {i : Instr} {s : State} {x : Reg} {op : KeyTest} {want : Bool}

/-- A key test on a key skips when the answer is the one wanted, after exactly one query (R220, R221). -/
theorem exec_keyTest {k : Config.Key} (hExec : exec i s = .next (s.keyTest x op want)) (hKey : (s.V x).toNat = k.val) :
    ∃ t, exec i s = .next t ∧ t.pc = (if s.keyPressed k = want then s.pc + 2 else s.pc) ∧
      t.keypad = { queued := s.keypad.queued.tail, drawn := s.keypad.drawn + 1 } ∧ Unchanged [.pc, .keypad] s t := by
  have hIn : (s.V x).toNat < 16 := hKey ▸ k.isLt
  have hNamed : (⟨(s.V x).toNat, hIn⟩ : Config.Key) = k := Fin.ext hKey
  rw [s.keyTest_inRange x op want hIn, hNamed] at hExec
  refine ⟨_, hExec, ?_, ?_, unchanged_mono (unchanged_append unchanged_afterKeyQuery (unchanged_skipIf _ _)) (by simp)⟩
  · simp [State.skipIf_eq]
  · rw [State.skipIf_eq]
    rfl

/-- A key test on a number above 15 (R246). -/
theorem exec_keyTest_outOfRange (hExec : exec i s = .next (s.keyTest x op want)) (hOut : 15 < (s.V x).toNat) :
    ∃ t, exec i s = .next t ∧ HaltedOn (.keyRange op (s.pc - 2) (s.V x)) t ∧ Unchanged [.engine] s t := by
  rw [s.keyTest_outOfRange x op want (by omega)] at hExec
  exact ⟨_, hExec, State.raise_engine _ _, unchanged_raise _⟩

end Keys

/-- Settles O34: SKP and SKNP are the key test with either answer wanted, and the port answers what is injected. -/
theorem keyTestsSkipOnAnswer : Obligations.KeyTestsSkipOnAnswer := by
  intro x k s hKey
  refine ⟨encodes_of_wordXKK_fixedLow rfl rfl (by decide), encodes_of_wordXKK_fixedLow rfl rfl (by decide),
    fun held rest hQueue => ?_, exec_keyTest rfl hKey, exec_keyTest rfl hKey⟩
  simp only [State.keyPressed, Feed.answer, hQueue]

/-- Settles O35: the range is checked before the query. -/
theorem keyTestsOutOfRangeHalt : Obligations.KeyTestsOutOfRangeHalt := by
  intro x s hOut
  exact ⟨exec_keyTest_outOfRange rfl hOut, exec_keyTest_outOfRange rfl hOut⟩

/-! ## The delay timer, and waiting for a key -/

/-- Settles O36: one register write of DT, and one write of DT. -/
theorem delayTimerReadAndWritten : Obligations.DelayTimerReadAndWritten := by
  intro x s
  exact ⟨encodes_of_wordXKK_fixedLow rfl rfl (by decide), encodes_of_wordXKK_fixedLow rfl rfl (by decide),
    exec_setV rfl, _, rfl, State.setDt_dt _ _, unchanged_setDt _⟩

/-- Settles O38: the poll's answer decides between going back and the register write. -/
theorem ldkpPollsAndRetries : Obligations.LdkpPollsAndRetries := by
  intro x s
  obtain ⟨t, hExec⟩ := exec_total (.ldkp x) s
  refine ⟨encodes_of_wordXKK_fixedLow rfl rfl (by decide), fun answer rest hQueue => ?_, fun hNone => ⟨t, hExec, ?_⟩,
    fun k hSome => ⟨t, hExec, ?_⟩⟩
  · rw [State.polledKey, Feed.answer, hQueue]
  · obtain ⟨-, rfl⟩ | ⟨k, hSome, -⟩ := exec_ldkp_cases hExec
    · exact ⟨rfl, rfl, unchanged_mono (unchanged_append unchanged_afterPoll (unchanged_setPc _)) (by simp)⟩
    · exact absurd (hNone.symm.trans hSome) nofun
  · obtain ⟨hNone, -⟩ | ⟨k', hSome', rfl⟩ := exec_ldkp_cases hExec
    · exact absurd (hNone.symm.trans hSome) nofun
    · obtain rfl : k' = k := Option.some.inj (hSome'.symm.trans hSome)
      refine ⟨?_, rfl, unchanged_mono (unchanged_append unchanged_afterPoll (unchanged_setV x _)) (by simp)⟩
      have hKey := k'.isLt
      rw [State.setV_V, if_pos rfl, BitVec.toNat_ofNat]
      omega

end Sys2Proof.Proofs
end

section
/-! Stores and loads at I, and what a later load or fetch sees of a store (43_index_memory.md section 3). -/

namespace Sys2Proof.Proofs

open Sys2Proof.Machine

/-! ## Stores -/

section Stores

variable {i : Instr} {s : State} {bs : List Byte}

/-- A store with its bytes in memory: each is where it belongs, and every other byte is as before (R186). -/
theorem exec_store_inBounds (hExec : exec i s = .next (s.storeAtI bs)) (hWf : Memory.wf s.mem)
    (hIn : DataInBounds s bs.length) :
    ∃ t, exec i s = .next t ∧ (∀ k, k < bs.length → Memory.get t.mem (s.ea k) = bs.getD k 0) ∧
      (∀ a, (∀ k, k < bs.length → a ≠ s.ea k) → Memory.get t.mem a = Memory.get s.mem a) ∧ Unchanged [.mem] s t := by
  rw [s.storeAtI_inBounds bs hIn] at hExec
  have hGet := fun a => Memory.get_putAll bs s.mem s.i.toNat a hWf (hIn.imp_left List.eq_nil_of_length_eq_zero)
  refine ⟨_, hExec, fun k hk => ?_, fun a ha => ?_, unchanged_setMem _⟩
  · rw [State.setMem_mem, hGet, State.ea, if_pos (by omega), Nat.add_sub_cancel_left]
  · rw [State.setMem_mem, hGet, if_neg]
    rintro ⟨hLo, hHi⟩
    exact ha (a - s.i.toNat) (by omega) (by rw [State.ea]; omega)

/-- A store that runs out of memory: each byte in bounds is old or new, and every other byte is as before (R249). -/
theorem exec_store_outOfBounds (hExec : exec i s = .next (s.storeAtI bs)) (hWf : Memory.wf s.mem)
    (hOut : ¬ DataInBounds s bs.length) :
    ∃ t, exec i s = .next t ∧ HaltedOn (.memOob .write (max s.i.toNat 4096) (s.pc - 2)) t ∧
      (∀ k, k < bs.length → Memory.get t.mem (s.ea k) = Memory.get s.mem (s.ea k) ∨
        Memory.get t.mem (s.ea k) = bs.getD k 0) ∧
      (∀ a, (∀ k, k < bs.length → s.ea k < 4096 → a ≠ s.ea k) → Memory.get t.mem a = Memory.get s.mem a) ∧
      Unchanged [.mem, .engine, .torn] s t := by
  have hFrame := unchanged_storeAtI s bs
  rw [s.storeAtI_outOfBounds bs hOut] at hExec hFrame
  have hGet := fun a => Memory.get_putSome (fun k => decide (s.ea k < memSize) && s.keepsNew k) bs s.mem s.i.toNat 0 a hWf
    fun j => inBounds_of_torn
  refine ⟨_, hExec, State.raise_engine _ _, fun k hk => ?_, fun a ha => ?_, hFrame⟩
  · rw [State.raise_mem, State.countTorn_mem, State.setMem_mem, hGet]
    split
    · rw [State.ea, Nat.add_sub_cancel_left]
      exact .inr rfl
    · exact .inl rfl
  · rw [State.raise_mem, State.countTorn_mem, State.setMem_mem, hGet, if_neg]
    rintro ⟨hLo, hHi, hPicked⟩
    exact ha (a - s.i.toNat) (by omega) (inBounds_of_torn hPicked) (by rw [State.ea]; omega)

end Stores

/-- The digits STDR stores, as numbers (R183). -/
theorem decimalDigits_getD_toNat (b : Byte) (k : Nat) :
    ((decimalDigits b).getD k 0).toNat = [b.toNat / 100, b.toNat / 10 % 10, b.toNat % 10].getD k 0 := by
  have := b.isLt
  match k with
  | 0 | 1 | 2 =>
    simp [decimalDigits]
    omega
  | _ + 3 => rfl

/-- Settles O25: a store of three bytes, the decimal digits. -/
theorem stdrStoresDecimalDigits : Obligations.StdrStoresDecimalDigits := by
  intro x s hWf
  refine ⟨encodes_of_wordXKK_fixedLow rfl rfl (by decide), fun hIn => ?_, fun hOut => ?_⟩
  · obtain ⟨t, hNext, hBytes, hOthers, hFrame⟩ := exec_store_inBounds (i := .stdr x) rfl hWf hIn
    have hDigit : ∀ k, k < 3 → (Memory.get t.mem (s.ea k)).toNat = _ := fun k hk =>
      (congrArg BitVec.toNat (hBytes k hk)).trans (decimalDigits_getD_toNat _ k)
    exact ⟨t, hNext, hDigit 0 (by decide), hDigit 1 (by decide), hDigit 2 (by decide), hOthers, hFrame⟩
  · obtain ⟨t, hNext, hHalted, hBytes, hOthers, hFrame⟩ := exec_store_outOfBounds (i := .stdr x) rfl hWf hOut
    refine ⟨t, hNext, hHalted, fun k hk _ => (hBytes k hk).imp_right fun hNew => ?_, hOthers, hFrame⟩
    rw [hNew, decimalDigits_getD_toNat]

/-! ## Registers in order -/

section Registers

variable {x : Reg} {s : State}

/-- The offsets of a transfer of V[0] to V[x] are the numbers of these registers. -/
theorem forall_lt_iff_forall_le_reg {P : Nat → Prop} : (∀ k, k < x.val + 1 → P k) ↔ ∀ r : Reg, r ≤ x → P r.val := by
  constructor
  · exact fun h r hr => h r.val (Nat.lt_succ_of_le hr)
  · exact fun h k hk => h ⟨k, by omega⟩ (Nat.le_of_lt_succ hk)

/-- A transfer of at least one byte is in bounds when its last byte is (R55). -/
theorem dataInBounds_succ {n : Nat} : DataInBounds s (n + 1) ↔ s.i.toNat + (n + 1) ≤ memSize := by
  simp [DataInBounds]

end Registers

/-- Settles O27: a store of V[0] to V[x]. -/
theorem strdStoresRegisters : Obligations.StrdStoresRegisters := by
  intro x s hWf
  have hLength : (s.firstRegs x).length = x.val + 1 := s.firstRegs_length x
  refine ⟨encodes_of_wordXKK_fixedLow rfl rfl (by decide), fun hIn => ?_, fun hOut => ?_⟩
  · obtain ⟨t, hNext, hBytes, hOthers, hFrame⟩ := exec_store_inBounds (i := .strd x) rfl hWf (hLength ▸ hIn)
    rw [hLength] at hBytes hOthers
    refine ⟨t, hNext, fun r hr => ?_, fun a ha => hOthers a (forall_lt_iff_forall_le_reg.2 ha), hFrame⟩
    rw [forall_lt_iff_forall_le_reg.1 hBytes r hr, s.firstRegs_getD x r hr]
  · obtain ⟨t, hNext, hHalted, hBytes, hOthers, hFrame⟩ :=
      exec_store_outOfBounds (i := .strd x) rfl hWf (hLength ▸ hOut)
    rw [hLength] at hBytes hOthers
    refine ⟨t, hNext, hHalted, fun r hr _ => ?_, fun a ha => hOthers a (forall_lt_iff_forall_le_reg.2 ha), hFrame⟩
    rw [← s.firstRegs_getD x r hr]
    exact forall_lt_iff_forall_le_reg.1 hBytes r hr

/-! ## Loads -/

/-- Settles O26: the loaded register file, with every byte taken or with those that a halt leaves old. -/
theorem ldrdLoadsRegisters : Obligations.LdrdLoadsRegisters := by
  intro x s
  refine ⟨encodes_of_wordXKK_fixedLow rfl rfl (by decide), fun hIn => ?_, fun hOut => ?_⟩
  · have hExec : exec (.ldrd x) s = .next (s.loadAtI x) := rfl
    rw [s.loadAtI_inBounds x (dataInBounds_succ.1 hIn)] at hExec
    refine ⟨_, hExec, fun r hr => ?_, unchanged_setRegs_loadedRegs x _⟩
    rw [State.setRegs_V, State.loadedRegs_get, if_pos ⟨hr, rfl⟩]
  · have hExec : exec (.ldrd x) s = .next (s.loadAtI x) := rfl
    have hFrame := unchanged_loadAtI s x
    rw [s.loadAtI_outOfBounds x fun h => hOut (dataInBounds_succ.2 h)] at hExec hFrame
    refine ⟨_, hExec, State.raise_engine _ _, fun r hr => ?_, hFrame⟩
    rw [State.raise_V, State.countTorn_V, State.setRegs_V, State.loadedRegs_get]
    split
    · next hTaken =>
      simp only [Bool.and_eq_true, decide_eq_true_eq] at hTaken
      exact .inr ⟨hTaken.2.1, rfl⟩
    · exact .inl rfl

/-! ## What is seen of a store -/

/-- What STRD in bounds leaves for later reads: the registers in memory, and I as it was (R186). -/
theorem strd_stored {x : Reg} {s t : State} (hWf : Memory.wf s.mem) (hIn : DataInBounds s (x.val + 1))
    (hExec : exec (.strd x) s = .next t) : t.i = s.i ∧ ∀ r, r ≤ x → Memory.get t.mem (s.ea r.val) = s.V r := by
  obtain ⟨-, hStores, -⟩ := strdStoresRegisters x s hWf
  obtain ⟨t', hNext, hBytes, -, hFrame⟩ := hStores hIn
  cases hExec.symm.trans hNext
  exact ⟨hFrame .i (by simp), hBytes⟩

/-- Settles O28: with the same I the load reads the addresses the store wrote. -/
theorem ldrdReadsBackStrd : Obligations.LdrdReadsBackStrd := by
  intro x s t u hWf hIn hExec hMem hI
  obtain ⟨hKept, hStored⟩ := strd_stored hWf hIn hExec
  have hSameI : u.i = s.i := hI.trans hKept
  obtain ⟨-, hLoads, -⟩ := ldrdLoadsRegisters x u
  obtain ⟨w, hNext, hRegs, -⟩ := hLoads (by rw [DataInBounds, hSameI]; exact hIn)
  refine ⟨w, hNext, fun r hr => ?_⟩
  rw [hRegs r hr, hMem, State.ea, hSameI]
  exact hStored r hr

/-- Settles O29: the two bytes at PC are those the store put at I and I + 1. -/
theorem fetchSeesEarlierStore : Obligations.FetchSeesEarlierStore := by
  intro x s t u hx hWf hIn hExec hMem hPc
  obtain ⟨hKept, hStored⟩ := strd_stored hWf hIn hExec
  have hHigh : Memory.get t.mem s.i.toNat = s.V 0 := hStored 0 (Fin.zero_le x)
  have hLow : Memory.get t.mem (s.i.toNat + 1) = s.V 1 := hStored 1 hx
  rw [State.opcodeAtPc, joinBytes_toNat, hMem, hPc, hKept, hHigh, hLow]

end Sys2Proof.Proofs
end

section
/-! DRAW: its loops in closed form (44_display.md). A sprite is a mask over the grid; drawing it XORs the mask onto the display. -/

namespace Sys2Proof.Proofs

open Sys2Proof.Machine

/-! ## Drawing a mask -/

/-- A set of grid pixels to be flipped. -/
abbrev Mask := Fin 64 → Fin 32 → Bool

/-- From `g` to `g'` the mask `m` was drawn: every pixel is itself XOR the mask, and the collision flag is raised when the mask
meets a lit pixel (R201). -/
structure Draws (m : Mask) (g g' : Canvas) : Prop where
  pixel : ∀ x y, Display.get g'.1 x y = (Display.get g.1 x y ^^ m x y)
  flag_iff : g'.2 = true ↔ g.2 = true ∨ ∃ x y, Display.get g.1 x y = true ∧ m x y = true

section Masks

variable {m m' m'' : Mask} {g g' g'' : Canvas}

theorem draws_nothing (h : ∀ x y, m x y = false) : Draws m g g where
  pixel x y := by rw [h, Bool.xor_false]
  flag_iff := by simp [h]

/-- Drawing one mask and then another that it does not overlap draws both: the second meets the pixels as they were. -/
theorem draws_trans (hFirst : Draws m g g') (hSecond : Draws m' g' g'') (hDisjoint : ∀ x y, m x y = true → m' x y = false)
    (hUnion : ∀ x y, m'' x y = (m x y || m' x y)) : Draws m'' g g'' where
  pixel x y := by
    rw [hSecond.pixel, hFirst.pixel, hUnion]
    cases hm : m x y with
    | false => simp
    | true => simp [hDisjoint x y hm]
  flag_iff := by
    have hUnder : ∀ x y, (Display.get g'.1 x y = true ∧ m' x y = true) ↔ (Display.get g.1 x y = true ∧ m' x y = true) := by
      intro x y
      rw [hFirst.pixel]
      cases hm : m x y with
      | false => simp
      | true => simp [hDisjoint x y hm]
    simp only [hSecond.flag_iff, hFirst.flag_iff, hUnder, hUnion, Bool.or_eq_true, and_or_left, exists_or, or_assoc]

end Masks

/-! ## DRAW's two loops -/

section Loops

/-- The mask of one pixel of the sprite: nothing when it is off the grid. -/
def pixelMask (px py : Nat) (bit : Bool) : Mask := fun x y => decide (x.val = px ∧ y.val = py) && bit

/-- The mask of the first `columns` pixels of a sprite row, clipped at the grid's right and bottom edge. -/
def rowMask (b : Byte) (cx py columns : Nat) : Mask := fun x y =>
  decide (cx ≤ x.val ∧ x.val < cx + columns ∧ y.val = py) && spriteBit b (x.val - cx)

/-- The mask of the first `rows` rows of a sprite. -/
def spriteMask (mem : Memory) (base cx cy rows : Nat) : Mask := fun x y =>
  decide (cx ≤ x.val ∧ x.val < cx + 8 ∧ cy ≤ y.val ∧ y.val < cy + rows) &&
    spriteBit (Memory.get mem (base + (y.val - cy))) (x.val - cx)

theorem drawPixel_draws (g : Canvas) (px py : Nat) (bit : Bool) : Draws (pixelMask px py bit) g (drawPixel g px py bit) where
  pixel x y := by
    rw [drawPixel_get, pixelMask]
    by_cases hAt : x.val = px ∧ y.val = py
    · simp [hAt]
    · rw [if_neg hAt, decide_eq_false hAt, Bool.false_and, Bool.xor_false]
  flag_iff := by
    unfold drawPixel
    split
    · next hGrid =>
      have hCleared : ∀ old : Bool, (old && !(old ^^ bit)) = (old && bit) := by
        intro old
        cases old <;> cases bit <;> rfl
      simp only [hCleared, pixelMask, Bool.or_eq_true, Bool.and_eq_true, decide_eq_true_eq]
      refine or_congr_right ⟨fun ⟨hOld, hBit⟩ => ⟨⟨px, hGrid.1⟩, ⟨py, hGrid.2⟩, hOld, ⟨rfl, rfl⟩, hBit⟩, ?_⟩
      rintro ⟨x, y, hOld, ⟨rfl, rfl⟩, hBit⟩
      exact ⟨hOld, hBit⟩
    · next hGrid =>
      refine (or_iff_left ?_).symm
      rintro ⟨x, y, -, hMask⟩
      simp only [pixelMask, Bool.and_eq_true, decide_eq_true_eq] at hMask
      obtain ⟨⟨rfl, rfl⟩, -⟩ := hMask
      exact hGrid ⟨x.isLt, y.isLt⟩

theorem rowMask_zero (b : Byte) (cx py : Nat) (x : Fin 64) (y : Fin 32) : rowMask b cx py 0 x y = false := by
  rw [rowMask, decide_eq_false (by omega), Bool.false_and]

/-- One more column of a row. -/
theorem rowMask_succ (b : Byte) (cx py k : Nat) (x : Fin 64) (y : Fin 32) :
    rowMask b cx py (k + 1) x y = (rowMask b cx py k x y || pixelMask (cx + k) py (spriteBit b k) x y) := by
  by_cases hAt : x.val = cx + k ∧ y.val = py
  · obtain ⟨hx, hy⟩ := hAt
    simp [rowMask, pixelMask, hx, hy]
  · have hSame : (cx ≤ x.val ∧ x.val < cx + (k + 1) ∧ y.val = py) ↔ (cx ≤ x.val ∧ x.val < cx + k ∧ y.val = py) := by omega
    simp only [rowMask, pixelMask, hSame, decide_eq_false hAt, Bool.false_and, Bool.or_false]

/-- The next column is not among those before it. -/
theorem pixelMask_of_rowMask {b : Byte} {cx py k : Nat} {bit : Bool} {x : Fin 64} {y : Fin 32}
    (h : rowMask b cx py k x y = true) : pixelMask (cx + k) py bit x y = false := by
  simp only [rowMask, Bool.and_eq_true, decide_eq_true_eq] at h
  rw [pixelMask, decide_eq_false (by omega), Bool.false_and]

theorem spriteMask_zero (mem : Memory) (base cx cy : Nat) (x : Fin 64) (y : Fin 32) :
    spriteMask mem base cx cy 0 x y = false := by
  rw [spriteMask, decide_eq_false (by omega), Bool.false_and]

/-- One more row of a sprite. -/
theorem spriteMask_succ (mem : Memory) (base cx cy r : Nat) (x : Fin 64) (y : Fin 32) :
    spriteMask mem base cx cy (r + 1) x y
      = (spriteMask mem base cx cy r x y || rowMask (Memory.get mem (base + r)) cx (cy + r) 8 x y) := by
  by_cases hAt : y.val = cy + r
  · simp [spriteMask, rowMask, hAt]
  · have hSame : (cx ≤ x.val ∧ x.val < cx + 8 ∧ cy ≤ y.val ∧ y.val < cy + (r + 1)) ↔
        (cx ≤ x.val ∧ x.val < cx + 8 ∧ cy ≤ y.val ∧ y.val < cy + r) := by omega
    have hRow : ¬(cx ≤ x.val ∧ x.val < cx + 8 ∧ y.val = cy + r) := fun h => hAt h.2.2
    simp only [spriteMask, rowMask, hSame, decide_eq_false hRow, Bool.false_and, Bool.or_false]

/-- The next row is not among those before it. -/
theorem rowMask_of_spriteMask {mem : Memory} {base cx cy r : Nat} {b : Byte} {x : Fin 64} {y : Fin 32}
    (h : spriteMask mem base cx cy r x y = true) : rowMask b cx (cy + r) 8 x y = false := by
  simp only [spriteMask, Bool.and_eq_true, decide_eq_true_eq] at h
  rw [rowMask, decide_eq_false (by omega), Bool.false_and]

theorem drawRow_draws (b : Byte) (cx py : Nat) (g : Canvas) : Draws (rowMask b cx py 8) g (drawRow g cx py b) := by
  suffices hColumns : ∀ k, Draws (rowMask b cx py k) g
      ((List.range k).foldl (fun g c => drawPixel g (cx + c) py (spriteBit b c)) g) from hColumns 8
  intro k
  induction k with
  | zero => exact draws_nothing (rowMask_zero b cx py)
  | succ k ih =>
    rw [List.range_succ, List.foldl_append]
    exact draws_trans ih (drawPixel_draws _ _ _ _) (fun _ _ => pixelMask_of_rowMask) (rowMask_succ b cx py k)

theorem drawRows_draws (mem : Memory) (base cx cy rows : Nat) (g : Canvas) :
    Draws (spriteMask mem base cx cy rows) g (drawRows mem base cx cy rows g) := by
  unfold drawRows
  induction rows with
  | zero => exact draws_nothing (spriteMask_zero mem base cx cy)
  | succ r ih =>
    rw [List.range_succ, List.foldl_append]
    exact draws_trans ih (drawRow_draws _ _ _ _) (fun _ _ => rowMask_of_spriteMask) (spriteMask_succ mem base cx cy r)

end Loops

/-! ## DRAW -/

section Draw

variable {s t : State} {x y : Reg} {n : Rows}

/-- The rows DRAW draws are the sprite, from a lowered collision flag. -/
theorem drawn_draws (s : State) (x y : Reg) (rows : Nat) :
    Draws (spritePixel s x y rows) (s.display, false) (s.drawn x y rows) :=
  drawRows_draws s.mem s.i.toNat _ _ rows (s.display, false)

theorem drawn_pixel (s : State) (x y : Reg) (rows : Nat) (px : Fin 64) (py : Fin 32) :
    Display.get (s.drawn x y rows).1 px py = (Display.get s.display px py ^^ spritePixel s x y rows px py) :=
  (drawn_draws s x y rows).pixel px py

theorem drawn_collided_iff (s : State) (x y : Reg) (rows : Nat) : (s.drawn x y rows).2 = true ↔ Collides s x y rows := by
  rw [(drawn_draws s x y rows).flag_iff]
  exact or_iff_right Bool.false_ne_true

/-- How many row bytes are in memory when not all are. -/
theorem rowsInRange_of_outOfBounds (hOut : ¬ DataInBounds s n.val) : s.rowsInRange n.val = 4096 - s.i.toNat := by
  simp only [DataInBounds, memSize, not_or] at hOut
  rw [State.rowsInRange, memSize]
  omega

/-- VF after a DRAW that halted part-way (R249). -/
theorem tornFlag_cases (s : State) (collided : Bool) :
    s.tornFlag collided = s.V VF ∨ s.tornFlag collided = 0 ∨ (s.tornFlag collided = 1 ∧ collided = true) := by
  unfold State.tornFlag
  split
  · cases collided with
    | true =>
      split
      · exact .inr (.inr ⟨rfl, rfl⟩)
      · exact .inr (.inl rfl)
    | false => exact .inr (.inl (ite_self _))
  · exact .inl rfl

/-- The sprite depends on the start position, I and the row bytes only. -/
theorem spritePixel_congr (hx : t.V x = s.V x) (hy : t.V y = s.V y) (hI : t.i = s.i)
    (hMem : ∀ a, Memory.get t.mem a = Memory.get s.mem a) (rows : Nat) (px : Fin 64) (py : Fin 32) :
    spritePixel t x y rows px py = spritePixel s x y rows px py := by
  simp only [spritePixel, hx, hy, hI, hMem]

end Draw

/-- Settles O31: what DRAW's loops draw is the sprite, and the flag they raise is the collision. -/
theorem drawXorsSpriteAndSetsCollision : Obligations.DrawXorsSpriteAndSetsCollision := by
  intro x y n s
  refine ⟨encodes_of_encode_toNat ?_, fun hIn => ⟨_, execDraw_inBounds s x y n hIn, fun px py => ?_, fun hHit => ?_,
    fun hMiss => ?_, unchanged_setDisplay_setFlag _ _⟩⟩
  · rw [encode, wordXYN_toNat (by decide)]
    omega
  · rw [State.setFlag, State.setV_display, State.setDisplay_display, drawn_pixel]
  · rw [State.setFlag, State.setV_V, if_pos rfl, (drawn_collided_iff s x y n.val).2 hHit]
    rfl
  · rw [State.setFlag, State.setV_V, if_pos rfl, Bool.eq_false_iff.2 fun hHit => hMiss ((drawn_collided_iff s x y n.val).1 hHit)]
    rfl

/-- Settles O32: the display is a mix of the old one and the one with the rows in bounds drawn, and VF is `State.tornFlag`. -/
theorem drawOutOfMemoryHalts : Obligations.DrawOutOfMemoryHalts := by
  intro x y n s hOut
  have hExec := execDraw_outOfBounds s x y n hOut
  have hFrame : Unchanged [.display, .v VF, .engine, .torn] s _ := exec_draw_frame hExec
  rw [rowsInRange_of_outOfBounds hOut] at hExec hFrame
  refine ⟨_, hExec, State.raise_engine _ _, fun px py => ?_, ?_, hFrame⟩
  · rw [State.raise_display, State.countTorn_display, State.setFlag, State.setV_display, State.setDisplay_display,
      Display.get_mix, drawn_pixel]
    split
    · exact .inr rfl
    · exact .inl rfl
  · rw [State.raise_V, State.countTorn_V, State.setFlag, State.setV_V, if_pos rfl, ← drawn_collided_iff]
    exact tornFlag_cases s _

/-- Settles O33: the second draw has the same sprite, so it undoes the first, and a pixel the first lit is one it clears. -/
theorem drawTwiceRestoresDisplay : Obligations.DrawTwiceRestoresDisplay := by
  intro x y n s t hx hy hIn hFirst
  obtain ⟨t', hNext, hPixelT, -, -, hFrame⟩ := (drawXorsSpriteAndSetsCollision x y n s).2 hIn
  cases hFirst.symm.trans hNext
  have hI : t.i = s.i := hFrame .i (by simp)
  have hSprite := spritePixel_congr (rows := n.val) (hFrame (.v x) (by simp [hx])) (hFrame (.v y) (by simp [hy])) hI
    (hFrame .mem (by simp))
  obtain ⟨u, hSecond, hPixelU, hHit, -, -⟩ := (drawXorsSpriteAndSetsCollision x y n t).2 (by rw [DataInBounds, hI]; exact hIn)
  refine ⟨u, hSecond, fun px py => ?_, ?_⟩
  · rw [hPixelU, hPixelT, hSprite, Bool.xor_assoc, Bool.xor_self, Bool.xor_false]
  · rintro ⟨px, py, hOne, hDark⟩
    exact hHit ⟨px, py, by rw [hPixelT, hDark, hOne]; rfl, by rw [hSprite, hOne]⟩

end Sys2Proof.Proofs
end

section
/-! Construction: the font at 0x000, the image at 0x200, and every other byte at MEM_INIT (70_reset_and_hazards.md section 1). -/

namespace Sys2Proof.Proofs

open Sys2Proof.Machine

section Loading

variable {c : Setup} {image : List Byte}

theorem font_inBounds (hWf : c.wf) : c.font = [] ∨ 0 + c.font.length ≤ memSize := by
  obtain ⟨-, hFont, -⟩ := hWf
  exact .inr (by rw [hFont]; decide)

theorem image_inBounds (hFits : image.length ≤ 3584) : image = [] ∨ progBase + image.length ≤ memSize := by
  simp only [progBase, memSize]
  exact .inr (by omega)

theorem fontMemory_wf (hWf : c.wf) : Memory.wf (Memory.putAll c.memInit 0 c.font) := by
  have ⟨_, _, hMem⟩ := hWf
  exact Memory.putAll_wf _ _ _ hMem (font_inBounds hWf)

theorem loadedMemory_wf (hWf : c.wf) (hFits : image.length ≤ 3584) : Memory.wf (loadedMemory c image) :=
  Memory.putAll_wf _ _ _ (fontMemory_wf hWf) (image_inBounds hFits)

/-- A byte of the loaded memory: of the image, of the font, or as it was; the font ends below the image. -/
theorem loadedMemory_get (hWf : c.wf) (hFits : image.length ≤ 3584) (a : Nat) :
    Memory.get (loadedMemory c image) a =
      if 0x200 ≤ a ∧ a < 0x200 + image.length then image.getD (a - 0x200) 0
      else if a < 80 then c.font.getD a 0 else Memory.get c.memInit a := by
  have ⟨_, hFont, hMem⟩ := hWf
  rw [loadedMemory, Memory.get_putAll _ _ _ _ (fontMemory_wf hWf) (image_inBounds hFits),
    Memory.get_putAll _ _ _ _ hMem (font_inBounds hWf), hFont]
  simp [progBase]

/-- The machine is built in Ready with an empty stack, so the invariant is the loaded memory's and the parameters'. -/
theorem builtMachine_inv (hWf : c.wf) (hFits : image.length ≤ 3584) : MachineInv (builtMachine c image) where
  memWf := loadedMemory_wf hWf hFits
  pcBound := (by decide : (BitVec.ofNat 16 progBase).toNat ≤ 0x10FE)
  returnBound := nofun
  depth _ _ := Nat.zero_le _
  paramsWf := hWf.1

theorem construct_of_oversized (hLong : 3584 < image.length) : construct c image = .refused .imageTooLarge := by
  have hRefused : progMax < image.length := hLong
  rw [construct, if_pos hRefused]

theorem construct_of_wf (hWf : c.wf) (hFits : image.length ≤ 3584) : construct c image = .next (builtMachine c image) := by
  have hAccepted : ¬ progMax < image.length := Nat.not_lt.2 hFits
  rw [construct, if_neg hAccepted, if_pos hWf]

end Loading

/-- Settles O59: `construct` in its two cases; the built machine's fields are the setup's, and its memory is the loaded one. -/
theorem constructionLoadsImageVerbatim : Obligations.ConstructionLoadsImageVerbatim := by
  refine ⟨fun c image hLong => construct_of_oversized hLong, fun c image hWf hFits => ?_⟩
  have hGet := loadedMemory_get hWf hFits
  refine ⟨builtMachine c image, construct_of_wf hWf hFits, builtMachine_inv hWf hFits, rfl, rfl, rfl, rfl, rfl, rfl, rfl, rfl,
    rfl, rfl, List.length_replicate, fun o ho => ?_, rfl, rfl, rfl, rfl, rfl, rfl, fun k hk => ?_, fun k hk => ?_,
    fun a hFont hImage => ?_⟩
  · obtain rfl := List.eq_of_mem_replicate ho
    exact ⟨rfl, rfl⟩
  · exact (hGet k).trans (by rw [if_neg (by omega), if_pos hk])
  · exact (hGet (0x200 + k)).trans (by rw [if_pos (by omega), Nat.add_sub_cancel_left])
  · exact (hGet a).trans (by rw [if_neg hImage, if_neg (by omega)])

end Sys2Proof.Proofs
end
